-- ==== Sys2Proof/Word.lean ====
section
/-! DEFINITION. The word types of BLOSC: every port and every register-map read is one 32-bit word
(20_memory.md R57); a step-table entry is 16 bits (00_scope.md R7). -/

namespace Sys2Proof

/-- A 32-bit word: CMD, DATA, response data, a u32 register, or the pattern of an s32 cell (R9, R57). -/
abbrev Word := BitVec 32

/-- The pattern of one s16 step-table entry (R7: TB = 16). -/
abbrev Entry := BitVec 16

end Sys2Proof
end

