-- ==== Sys2Proof/Config.lean ====
section
/-! DEFINITION. The parameters of BLOSC with the values this hardware takes (00_scope.md R7, R8).
The definitions of the machine write the values as numerals where an index or a width is meant;
the names below are the ones the ID register and the statements use. -/

namespace Sys2Proof

/-- STEP_TABLE as plain data: row f (fractional offset), column k (tap), both 0..15, of s16 patterns
(20_memory.md R54 (1), 40_datapath.md R93). Its contents are OPEN (R7, R94). -/
abbrev StepTable := Vector (Vector Entry 16) 16

namespace Config

/-- P: phase and frequency-word width in bits (R7). -/
abbrev P : Nat := 32
/-- S: output sample width in bits (R7). -/
abbrev S : Nat := 16
/-- W: correction window, taps per event, cells (R7). -/
abbrev W : Nat := 16
/-- FL: fractional-offset levels (R7). -/
abbrev FL : Nat := 16
/-- E: event-ring capacity in slots (R7). -/
abbrev E : Nat := 32
/-- TB: step-table entry width in bits (R7). -/
abbrev TB : Nat := 16
/-- U: the table value of one unit step (R7). -/
abbrev U : Nat := 32768
/-- ACC: cell width in bits (R7). -/
abbrev ACC : Nat := 32

/-- FREQ_MAX, the largest legal phase increment per sample (R7; 90_conflicts.md C2). -/
def freqMax : Word := 0x7FFFFFFF#32

end Config
end Sys2Proof
end

