-- ==== Sys2Proof/Machine/StepTable.lean ====
section
/-! DEFINITION. The band-limited step table: its lookup T(f, k) and the default contents TABLE_REF
(40_datapath.md R93, R94). -/

namespace Sys2Proof.Machine

/-- T(f, k) = STEP_TABLE[f][k] as an s16 (R93). Every call has k in 0..15 (R107); the lookup is total and
never fails (R93, R180). -/
def tableEntry (t : StepTable) (f : BitVec 4) (k : Nat) : Int :=
  ((t[f.toNat]'f.isLt)[k % 16]'(Nat.mod_lt _ (by decide))).toInt

/-- The value of TABLE_REF at (f, k) (R94). -/
def tableRefValue (f k : Nat) : Int :=
  if k = 0 then 1024 * (f : Int) - 32256
  else if k = 1 then 1024 * (f : Int) - 15872
  else 0

/-- TABLE_REF, the default STEP_TABLE (R94), as s16 patterns. -/
def tableRef : StepTable :=
  Vector.ofFn fun f => Vector.ofFn fun k => BitVec.ofInt 16 (tableRefValue f.val k.val)

end Sys2Proof.Machine
end

