-- ==== Sys2Proof/Machine/State.lean ====
section
/-! DEFINITION. The state of one BLOSC block: the tuple of 10_state.md R20, and beside it the three things
R34 calls parameter, input and output (the step table, the port values to come, the responses not yet
taken), which a step function of the state alone must find in it (log 1, 3, 4). Plain data throughout. -/

namespace Sys2Proof.Machine

/-- MODE, the family the last INIT selected (R27). Values 4 to 7 are never held (log 7). -/
inductive Mode where
  | none  -- 0: no INIT since reset
  | saw   -- 1
  | rsaw  -- 2
  | sq    -- 3
deriving DecidableEq, Repr

/-- The fault causes of 60_exceptions.md R171. Codes 0 and 6 to 15 are never recorded. -/
inductive Cause where
  | illegal   -- 1
  | uninit    -- 2
  | mode      -- 3
  | range     -- 4
  | overflow  -- 5
deriving DecidableEq, Repr

/-- One slot of the event ring: FRAC u4, RISING u1, AGE u5 (R31). -/
structure Slot where
  frac   : BitVec 4
  rising : Bool
  age    : BitVec 5
deriving DecidableEq, Repr

/-- One response: ERR and DATA (R3, R59; ports rsp_err and rsp_data of R51). -/
structure Response where
  err  : Bool
  data : Word
deriving DecidableEq, Repr

/-- What the ports of R51 depend on at one rising edge of clk: the host's inputs, and for BLOSC's outputs
cmd_ready and rsp_valid the level its timing gives each WHILE rst = 0, which R52 and R203 leave open, so any
values may stand here (log 2). The ports themselves are `PortEdge.cmdReady` and `PortEdge.rspValid` (Ports.lean),
which are 0 while rst = 1 whatever the levels (R190). rsp_err and rsp_data are the oldest pending response. -/
structure PortEdge where
  rst        : Bool
  cmdValid   : Bool
  readyLevel : Bool
  cmdWord    : Word
  cmdData    : Word
  validLevel : Bool
  rspReady   : Bool
deriving DecidableEq, Repr

/-- The state. The first group is R20's tuple; the second is the model's own (R34; log 3, 4, 8). -/
structure State where
  phase   : Word
  freq    : Word
  width   : Word
  pol     : Bool
  mode    : Mode
  fault   : Bool
  clamp   : Bool
  cause   : Option Cause
  cells   : Vector Word 16
  wptr    : BitVec 4
  slots   : Vector Slot 32
  head    : BitVec 5
  tail    : BitVec 5
  count   : BitVec 6
  table   : StepTable
  inputs  : List PortEdge
  pending : List Response
deriving DecidableEq, Repr

/-- The model's own stops by a fault: there are none. A BLOSC fault is a next state (60_exceptions.md R172),
so no meaning ends in one, which is safe (log 12). -/
inductive Fault where
deriving DecidableEq, Repr

/-- The model's own refusals. -/
inductive Refusal where
  /-- Raised by `exec`'s arm of an instruction that has no meaning yet, and by nothing else; safe. No arm
  raises it in this model: every command has its meaning. -/
  | notModelled (mnemonic : String)
deriving DecidableEq, Repr

/-- A slot with every field 0 (R31). -/
def Slot.zero : Slot := ⟨0#4, false, 0#5⟩

/-- The machine right after reset: the values of R20 and 70_reset_and_hazards.md R190; the step table
TABLE_REF (log 3), no input offered and no response pending (log 4, 8). -/
def State.reset : State where
  phase := 0x00000000#32
  freq := 0x00000000#32
  width := 0x80000000#32
  pol := false
  mode := .none
  fault := false
  clamp := false
  cause := none
  cells := Vector.replicate 16 0#32
  wptr := 0#4
  slots := Vector.replicate 32 Slot.zero
  head := 0#5
  tail := 0#5
  count := 0#6
  table := tableRef
  inputs := []
  pending := []

/-- How a command or a clock edge ends: always in a next state here. -/
abbrev Result := Host.Outcome State Fault Refusal

end Sys2Proof.Machine
end

