-- ==== Sys2Proof/Machine/Ops.lean ====
section
/-! DEFINITION. The named operations over the state: ring indices, the cell file, the slot file, the
saturating primitives, giving a response, and taking a fault, which is ONE shared operation
(60_exceptions.md R172). There is no return from a fault but reset (R177; `State.applyReset`, Ports.lean). -/

namespace Sys2Proof.Machine

/-! ### Primitives (00_scope.md R11) -/

/-- sat_16 (R11). -/
def sat16 (x : Int) : Int := max (-32768) (min 32767 x)

/-- sat_32 (R11). -/
def sat32 (x : Int) : Int := max (-2147483648) (min 2147483647 x)

/-- enc_32 (R11). -/
def enc32 (x : Int) : Word := BitVec.ofInt 32 x

/-- A field of a register word, its lowest bit at bit `lo`; bits no field names read 0 (R9; 20_memory.md R56). -/
def field {n : Nat} (v : BitVec n) (lo : Nat) : Word := v.setWidth 32 <<< lo

/-! ### Indices, cells and slots (20_memory.md R55) -/

/-- (a + k) mod m, the one place a cursor or an index wraps (R55). -/
def wrap (m a k : Nat) : Nat := (a + k) % m

/-- CELL[i] for an index in 0..15 (R29). -/
def cellAt (cs : Vector Word 16) (i : Nat) : Word := cs[i % 16]'(Nat.mod_lt _ (by decide))

/-- CELL[i] <- v (R29). -/
def setCell (cs : Vector Word 16) (i : Nat) (v : Word) : Vector Word 16 :=
  cs.set (i % 16) v (Nat.mod_lt _ (by decide))

/-- SLOT[i] for an index in 0..31 (R31). -/
def slotAt (ss : Vector Slot 32) (i : Nat) : Slot := ss[i % 32]'(Nat.mod_lt _ (by decide))

/-- SLOT[i] <- e (R31). -/
def setSlot (ss : Vector Slot 32) (i : Nat) (e : Slot) : Vector Slot 32 :=
  ss.set (i % 32) e (Nat.mod_lt _ (by decide))

/-! ### Responses and faults -/

/-- respond(err, data): the command's one response, behind those not yet taken (R11; 20_memory.md R53). -/
def respond (err : Bool) (data : Word) (s : State) : State :=
  { s with pending := s.pending ++ [⟨err, data⟩] }

/-- The state change of fault recording: the first fault since reset fixes CAUSE, a later one changes
nothing (60_exceptions.md R172). -/
def recordFault (c : Cause) (s : State) : State :=
  if s.fault then s else { s with fault := true, cause := some c }

/-- raise Fault(c), given the state as it stood BEFORE the command, so that every write the command made
is discarded (00_scope.md R12, 60_exceptions.md R172): record, and respond (1, 0). -/
def raiseFault (c : Cause) (s : State) : State := respond true 0#32 (recordFault c s)

/-- The refusal of a command while FAULT = 1: response (1, 0), nothing else (60_exceptions.md R173). -/
def refuse (s : State) : State := respond true 0#32 s

end Sys2Proof.Machine
end

