-- ==== Sys2Proof/Syntax.lean ====
section
/-! DEFINITION. The commands of BLOSC: one constructor of `Instr` per row of the opcode map
(30_encoding.md R73). A command carries the operands its rule uses; the DATA word of a command that
ignores it is dropped at decode (R72, log 10). -/

namespace Sys2Proof

/-- The waveform family FAM of INIT and GEN (30_encoding.md R74). -/
inductive Family where
  | saw   -- 0: sawtooth
  | rsaw  -- 1: reverse sawtooth
  | sq    -- 2: square
deriving DecidableEq, Repr

/-- The phase source of a GEN (field PS, 30_encoding.md R75): the internal accumulator (PS = 0, DATA
ignored), or an external phase in DATA (PS = 1). -/
inductive PhaseSource where
  | internal
  | external (ph : Word)
deriving DecidableEq, Repr

/-- One BLOSC command, with the DATA word as its operand where the command uses it (R72, R73). -/
inductive Instr where
  | nop
  | initSaw (f : Word)
  | initRsaw (f : Word)
  | initSq (f : Word)
  | genSaw (src : PhaseSource)
  | genRsaw (src : PhaseSource)
  | genSq (src : PhaseSource)
  | setph (ph : Word)
  | cfgsq (polb : Bool) (wid : Word)
  | rdreg (reg : Nat)
deriving DecidableEq, Repr

end Sys2Proof
end

