-- ==== Sys2Proof/Machine/Flags.lean ====
section
/-! DEFINITION. STATUS and the codes software reads: the CLAMP flag's computation, the CAUSE and MODE
codes, and the STATUS word (10_state.md R27, R28; 60_exceptions.md R171). BLOSC has no condition codes. -/

namespace Sys2Proof.Machine

/-- STATUS.CLAMP after an INIT with frequency word f: 1 exactly when f > FREQ_MAX (R28; 41_init.md R120). -/
def clampFlag (f : Word) : Bool := decide (Config.freqMax.toNat < f.toNat)

/-- The code STATUS.CAUSE holds for a cause (R171). -/
def Cause.code : Cause → BitVec 4
  | .illegal => 1#4
  | .uninit => 2#4
  | .mode => 3#4
  | .range => 4#4
  | .overflow => 5#4

/-- STATUS.CAUSE as a u4: 0 means no fault (R28, R171). -/
def causeCode : Option Cause → BitVec 4
  | none => 0#4
  | some c => c.code

/-- The STATUS word: bit 0 FAULT, bit 1 CLAMP, bits 7:4 CAUSE, every other bit 0 (R28). -/
def statusWord (s : State) : Word :=
  field (BitVec.ofBool s.fault) 0 ||| field (BitVec.ofBool s.clamp) 1 ||| field (causeCode s.cause) 4

/-- MODE as a u3 (R27). -/
def Mode.code : Mode → BitVec 3
  | .none => 0#3
  | .saw => 1#3
  | .rsaw => 2#3
  | .sq => 3#3

/-- FAM + 1: the MODE that INIT of the family writes and GEN of the family requires (30_encoding.md R74). -/
def familyMode : Family → Mode
  | .saw => .saw
  | .rsaw => .rsaw
  | .sq => .sq

end Sys2Proof.Machine
end

