-- ==== Sys2Proof/Machine/Operands.lean ====
section
/-! DEFINITION. Every operand form of the commands: the frequency word INIT clamps (41_init.md R120), the
phase source of GEN (40_datapath.md R90, R91), and the register number of RDREG (20_memory.md R56). -/

namespace Sys2Proof.Machine

/-- min(DATA, FREQ_MAX) (R120). -/
def clampFreq (f : Word) : Word := if clampFlag f then Config.freqMax else f

/-- p1, the new phase of a GEN: PHASE + FREQ mod 2^32, or DATA (R90, R91). -/
def newPhase (src : PhaseSource) (s : State) : Word :=
  match src with
  | .internal => s.phase + s.freq
  | .external ph => ph

/-- d, the increment of a GEN: FREQ, or (DATA - PHASE) mod 2^32 (R90, R91). -/
def increment (src : PhaseSource) (s : State) : Word :=
  match src with
  | .internal => s.freq
  | .external ph => ph - s.phase

/-- The RANGE check of a GEN: only an external phase is checked, and fails when d > FREQ_MAX
(R91; 42_generate.md R130). -/
def outOfRange (src : PhaseSource) (s : State) : Bool :=
  match src with
  | .internal => false
  | .external ph => decide (Config.freqMax.toNat < (ph - s.phase).toNat)

/-- The RING word: [4:0] HEAD, [12:8] TAIL, [21:16] COUNT (R56). -/
def ringWord (s : State) : Word :=
  field s.head 0 ||| field s.tail 8 ||| field s.count 16

/-- The ID word: [31:24] P, [23:16] S, [15:8] E, [7:0] W (R56). -/
def idWord : Word :=
  field (BitVec.ofNat 8 Config.W) 0 ||| field (BitVec.ofNat 8 Config.E) 8 ||| field (BitVec.ofNat 8 Config.S) 16 |||
    field (BitVec.ofNat 8 Config.P) 24

/-- A SLOT word: [3:0] FRAC, [4] RISING, [12:8] AGE (R56). -/
def slotWord (e : Slot) : Word :=
  field e.frac 0 ||| field (BitVec.ofBool e.rising) 4 ||| field e.age 8

/-- The register map: the word RDREG reads at a register number, and none at a reserved one (R56). -/
def regValue (reg : Nat) (s : State) : Option Word :=
  if reg = 0x00 then some (statusWord s)
  else if reg = 0x01 then some (field s.mode.code 0)
  else if reg = 0x02 then some s.phase
  else if reg = 0x03 then some s.freq
  else if reg = 0x04 then some s.width
  else if reg = 0x05 then some (field (BitVec.ofBool s.pol) 0)
  else if reg = 0x06 then some (ringWord s)
  else if reg = 0x07 then some (field s.wptr 0)
  else if reg = 0x08 then some idWord
  else if 0x10 ≤ reg ∧ reg < 0x20 then some (cellAt s.cells (reg - 0x10))
  else if 0x20 ≤ reg ∧ reg < 0x40 then some (slotWord (slotAt s.slots (reg - 0x20)))
  else none

end Sys2Proof.Machine
end

