-- ==== Sys2Proof/Machine/Control.lean ====
section
/-! DEFINITION. The control commands NOP, SETPH, CFGSQ and RDREG (43_control.md R150 to R153), and what an
illegal command word does (30_encoding.md R76). -/

namespace Sys2Proof.Machine

/-- NOP: respond (0, 0), faulted or not (R150). -/
def execNop (s : State) : Result := .next (respond false 0#32 s)

/-- SETPH: PHASE <- DATA; refused while faulted (R151). -/
def execSetph (ph : Word) (s : State) : Result :=
  .next (if s.fault then refuse s else respond false 0#32 { s with phase := ph })

/-- CFGSQ: WIDTH <- DATA, POL <- POLB; refused while faulted (R152). -/
def execCfgsq (polb : Bool) (wid : Word) (s : State) : Result :=
  .next (if s.fault then refuse s else respond false 0#32 { s with width := wid, pol := polb })

/-- RDREG: respond with the register, or raise ILLEGAL for a reserved number; it runs while faulted (R153). -/
def execRdreg (reg : Nat) (s : State) : Result :=
  match regValue reg s with
  | some v => .next (respond false v s)
  | none => .next (raiseFault .illegal s)

/-- A command word that matches no row of the opcode map raises ILLEGAL (R76). -/
def execIllegal (s : State) : Result := .next (raiseFault .illegal s)

end Sys2Proof.Machine
end

