-- ==== Sys2Proof/Machine/Datapath.lean ====
section
/-! DEFINITION. The datapath GEN and INIT are built from (40_datapath.md): contributions, the naive
waveform, the discontinuity detector, and the overlap-accumulation buffer's steps. -/

namespace Sys2Proof.Machine

/-! ### Step table (R96, R97) -/

/-- contrib(f, k, rising) = (rising ? +1 : -1) * 2 * T(f, k) (R97). -/
def contrib (t : StepTable) (f : BitVec 4) (k : Nat) (rising : Bool) : Int :=
  (if rising then 1 else -1) * 2 * tableEntry t f k

/-! ### Step tracker (R99 to R103) -/

/-- p1[31:16] as an integer (R99). -/
def phaseHigh (p1 : Word) : Int := (p1.extractLsb' 16 16).toNat

/-- naive(fam, p1), an s16 as an integer; the square reads WIDTH and POL (R99; log 18). -/
def naive (fam : Family) (s : State) (p1 : Word) : Int :=
  match fam with
  | .saw => phaseHigh p1 - 32768
  | .rsaw => 32767 - phaseHigh p1
  | .sq => if decide (p1.toNat < s.width.toNat) = !s.pol then 32767 else -32768

/-- An edge: a boundary phase and a polarity (R100). -/
structure Edge where
  boundary : Word
  rising   : Bool
deriving DecidableEq, Repr

/-- A step event: fractional offset and polarity (R31, R103). -/
structure StepEvent where
  frac   : BitVec 4
  rising : Bool
deriving DecidableEq, Repr

/-- The edges of a family, in order; for POL = 0 the square rises at 0 and falls at WIDTH (R100). -/
def edges (fam : Family) (s : State) : List Edge :=
  match fam with
  | .saw => [⟨0#32, false⟩]
  | .rsaw => [⟨0#32, true⟩]
  | .sq => [⟨0#32, !s.pol⟩, ⟨s.width, s.pol⟩]

/-- q = (p1 - b) mod 2^32, how far past the boundary the new phase landed (R101). -/
def pastEdge (p1 b : Word) : Nat := (p1 - b).toNat

/-- The crossing test q < d (R101). -/
def crossed (p1 d : Word) (e : Edge) : Bool := decide (pastEdge p1 e.boundary < d.toNat)

/-- frac = (16 * q) div d, in 0..15 for a crossed edge (R102). -/
def fracOf (p1 d : Word) (e : Edge) : BitVec 4 := BitVec.ofNat 4 (16 * pastEdge p1 e.boundary / d.toNat)

/-- detect(fam, p1, d): the events of the crossed edges, in edge order (R103). -/
def detect (fam : Family) (s : State) (p1 d : Word) : List StepEvent :=
  ((edges fam s).filter (crossed p1 d)).map fun e => ⟨fracOf p1 d e, e.rising⟩

/-! ### Overlap-accumulation buffer (R105 to R111) -/

/-- One turn of the retirement loop: HEAD <- (HEAD + 1) mod E, COUNT <- COUNT - 1; the slot keeps its
contents (R105, R31). -/
def retireOne (s : State) : State :=
  { s with head := BitVec.ofNat 5 (wrap 32 s.head.toNat 1), count := BitVec.ofNat 6 (s.count.toNat - 1) }

/-- The loop's condition: COUNT > 0 and SLOT[HEAD].AGE = W (R105). -/
def retirable (s : State) : Bool :=
  decide (0 < s.count.toNat) && decide ((slotAt s.slots s.head.toNat).age.toNat = 16)

/-- At most `n` turns of the retirement loop. -/
def retireUpTo : Nat → State → State
  | 0, s => s
  | n + 1, s => if retirable s then retireUpTo n (retireOne s) else s

/-- retire(): the whole loop; it cannot turn more than COUNT times (R105; log 17). -/
def retire (s : State) : State := retireUpTo s.count.toNat s

/-- The capacity check of a GEN: COUNT + n > E (R106). -/
def overfull (n : Nat) (s : State) : Bool := decide (32 < s.count.toNat + n)

/-- Tap k of an event added to its cell: CELL[(WPTR + k) mod W] <- sat_32(... + contrib) (R107). -/
def addTap (t : StepTable) (wptr : Nat) (e : StepEvent) (cs : Vector Word 16) (k : Nat) : Vector Word 16 :=
  setCell cs (wrap 16 wptr k)
    (enc32 (sat32 ((cellAt cs (wrap 16 wptr k)).toInt + contrib t e.frac k e.rising)))

/-- All W taps of an event scattered into the cells, k = 0..15 (R107). -/
def scatter (t : StepTable) (wptr : Nat) (e : StepEvent) (cs : Vector Word 16) : Vector Word 16 :=
  (List.range 16).foldl (addTap t wptr e) cs

/-- insert(frac, rising): the slot at TAIL, the cursors, and the taps (R107). -/
def insertEvent (s : State) (e : StepEvent) : State :=
  { s with
    slots := setSlot s.slots s.tail.toNat ⟨e.frac, e.rising, 0#5⟩
    tail := BitVec.ofNat 5 (wrap 32 s.tail.toNat 1)
    count := BitVec.ofNat 6 (s.count.toNat + 1)
    cells := scatter s.table s.wptr.toNat e s.cells }

/-- Every event of the list, in order (R107). -/
def insertAll (evs : List StepEvent) (s : State) : State := evs.foldl insertEvent s

/-- y = sat_16(naive(fam, p1) + CELL[WPTR]) (R108). -/
def outputSample (fam : Family) (p1 : Word) (s : State) : Int :=
  sat16 (naive fam s p1 + (cellAt s.cells s.wptr.toNat).toInt)

/-- CELL[WPTR] <- 0 (R109). -/
def clearCell (s : State) : State := { s with cells := setCell s.cells s.wptr.toNat 0#32 }

/-- AGE <- AGE + 1 in slot (HEAD + j) mod E (R110). -/
def ageSlot (head : Nat) (ss : Vector Slot 32) (j : Nat) : Vector Slot 32 :=
  let e := slotAt ss (wrap 32 head j)
  setSlot ss (wrap 32 head j) { e with age := BitVec.ofNat 5 (e.age.toNat + 1) }

/-- age(): every live slot, j = 0..COUNT-1 (R110). -/
def ageAll (s : State) : State :=
  { s with slots := (List.range s.count.toNat).foldl (ageSlot s.head.toNat) s.slots }

/-- WPTR <- (WPTR + 1) mod W and PHASE <- p1 (R111). -/
def advanceWindow (p1 : Word) (s : State) : State :=
  { s with wptr := BitVec.ofNat 4 (wrap 16 s.wptr.toNat 1), phase := p1 }

end Sys2Proof.Machine
end

