-- ==== Sys2Proof/Machine/Gen.lean ====
section
/-! DEFINITION. The sample-generation commands GEN.SAW, GEN.RSAW and GEN.SQ (42_generate.md R130 to R133). -/

namespace Sys2Proof.Machine

/-- The last steps of a GEN, after every insertion: emit, clear, age, advance, respond with the sample
sign-extended to 32 bits (R130; R108 to R111). -/
def emitSample (fam : Family) (p1 : Word) (s : State) : State :=
  respond false (enc32 (outputSample fam p1 s)) (advanceWindow p1 (ageAll (clearCell s)))

/-- GEN(fam, PS, DATA) in the order of R130. Every raise is given the state before the command, so a
retirement made by then is discarded (R12, R172). -/
def genCommand (fam : Family) (src : PhaseSource) (s : State) : State :=
  if s.fault then refuse s
  else if s.mode = .none then raiseFault .uninit s
  else if s.mode ≠ familyMode fam then raiseFault .mode s
  else if outOfRange src s then raiseFault .range s
  else
    let p1 := newPhase src s
    let evs := detect fam s p1 (increment src s)
    let r := retire s
    if overfull evs.length r then raiseFault .overflow s
    else emitSample fam p1 (insertAll evs r)

/-- GEN.SAW (R131). -/
def execGenSaw (src : PhaseSource) (s : State) : Result := .next (genCommand .saw src s)

/-- GEN.RSAW (R132). -/
def execGenRsaw (src : PhaseSource) (s : State) : Result := .next (genCommand .rsaw src s)

/-- GEN.SQ (R133). -/
def execGenSq (src : PhaseSource) (s : State) : Result := .next (genCommand .sq src s)

end Sys2Proof.Machine
end

