-- ==== Sys2Proof/Machine/Init.lean ====
section
/-! DEFINITION. The initialisation commands INIT.SAW, INIT.RSAW and INIT.SQ (41_init.md R120 to R123). -/

namespace Sys2Proof.Machine

/-- Everything an unfaulted INIT writes (R120); WIDTH, POL, FAULT and CAUSE stay. -/
def initDatapath (fam : Family) (f : Word) (s : State) : State :=
  { s with
    freq := clampFreq f
    clamp := clampFlag f
    mode := familyMode fam
    phase := 0#32
    cells := Vector.replicate 16 0#32
    slots := Vector.replicate 32 Slot.zero
    head := 0#5
    tail := 0#5
    count := 0#6
    wptr := 0#4 }

/-- INIT(fam, DATA): refused while faulted, else initialise and respond (0, 0) (R120). -/
def initCommand (fam : Family) (f : Word) (s : State) : State :=
  if s.fault then refuse s else respond false 0#32 (initDatapath fam f s)

/-- INIT.SAW (R121). -/
def execInitSaw (f : Word) (s : State) : Result := .next (initCommand .saw f s)

/-- INIT.RSAW (R122). -/
def execInitRsaw (f : Word) (s : State) : Result := .next (initCommand .rsaw f s)

/-- INIT.SQ (R123). -/
def execInitSq (f : Word) (s : State) : Result := .next (initCommand .sq f s)

end Sys2Proof.Machine
end

