-- ==== Sys2Proof/Machine/Dispatch.lean ====
section
/-! DEFINITION. `exec`: the meaning of each command, one arm per row of the opcode map (30_encoding.md R73). -/
namespace Sys2Proof.Machine

/-- The transition of one accepted command (00_scope.md R12). -/
def exec (i : Instr) (s : State) : Host.Outcome State Fault Refusal :=
  match i with
  | .nop => Sys2Proof.Machine.execNop s
  | .initSaw f => Sys2Proof.Machine.execInitSaw f s
  | .initRsaw f => Sys2Proof.Machine.execInitRsaw f s
  | .initSq f => Sys2Proof.Machine.execInitSq f s
  | .genSaw src => Sys2Proof.Machine.execGenSaw src s
  | .genRsaw src => Sys2Proof.Machine.execGenRsaw src s
  | .genSq src => Sys2Proof.Machine.execGenSq src s
  | .setph ph => Sys2Proof.Machine.execSetph ph s
  | .cfgsq polb wid => Sys2Proof.Machine.execCfgsq polb wid s
  | .rdreg reg => Sys2Proof.Machine.execRdreg reg s

end Sys2Proof.Machine
end

