-- ==== Sys2Proof/WellFormed.lean ====
section
/-! DEFINITION. Which terms of `Instr` are commands: those a command word can encode. Every operand but
one has a type that holds exactly the values of its field; the register number of RDREG is a Nat and
must fit the 8-bit field REG (30_encoding.md R71). A reserved register number is well formed: RDREG
decodes and faults at execution (R75, R77). -/

namespace Sys2Proof

/-- REG is CMD[15:8] (R71), so a register number is below 256; nothing else can be ill formed (log 11). -/
def WellFormed : Instr → Bool
  | .nop => true
  | .initSaw _ => true
  | .initRsaw _ => true
  | .initSq _ => true
  | .genSaw _ => true
  | .genRsaw _ => true
  | .genSq _ => true
  | .setph _ => true
  | .cfgsq _ _ => true
  | .rdreg reg => decide (reg < 256)

end Sys2Proof
end

