-- ==== Sys2Proof/Decode.lean ====
section
/-! DEFINITION. The decoder, total on every (CMD, DATA) pair (30_encoding.md R77): it walks the opcode
table of R73 and rejects by name. After it the encoder, written from the fields of R71. -/

namespace Sys2Proof

/-! ### The fields of CMD (R71) -/

/-- OP, CMD[3:0]. -/
def fieldOp (cmd : Word) : BitVec 4 := cmd.extractLsb' 0 4
/-- FAM, CMD[5:4]. -/
def fieldFam (cmd : Word) : BitVec 2 := cmd.extractLsb' 4 2
/-- PS, CMD[6]. -/
def fieldPs (cmd : Word) : Bool := cmd.getLsbD 6
/-- POLB, CMD[7]. -/
def fieldPolb (cmd : Word) : Bool := cmd.getLsbD 7
/-- REG, CMD[15:8]. -/
def fieldReg (cmd : Word) : BitVec 8 := cmd.extractLsb' 8 8
/-- RSV, CMD[31:16]. -/
def fieldRsv (cmd : Word) : BitVec 16 := cmd.extractLsb' 16 16

/-- The ten mnemonics of the opcode map (R73). -/
inductive Mnemonic where
  | nop | initSaw | initRsaw | initSq | genSaw | genRsaw | genSq | setph | cfgsq | rdreg
deriving DecidableEq, Repr

/-- One row of the opcode map: a command word matches when (CMD AND mask) = pattern (R73). -/
structure OpcodeRow where
  mnemonic : Mnemonic
  pattern  : Word
  mask     : Word
deriving DecidableEq, Repr

/-- The opcode map of R73, row by row: mnemonic, match, mask. -/
def opcodeTable : List OpcodeRow :=
  [ ⟨.nop,      0x00000000#32, 0xFFFFFFFF#32⟩,
    ⟨.initSaw,  0x00000001#32, 0xFFFFFFFF#32⟩,
    ⟨.initRsaw, 0x00000011#32, 0xFFFFFFFF#32⟩,
    ⟨.initSq,   0x00000021#32, 0xFFFFFFFF#32⟩,
    ⟨.genSaw,   0x00000002#32, 0xFFFFFFBF#32⟩,
    ⟨.genRsaw,  0x00000012#32, 0xFFFFFFBF#32⟩,
    ⟨.genSq,    0x00000022#32, 0xFFFFFFBF#32⟩,
    ⟨.setph,    0x00000003#32, 0xFFFFFFFF#32⟩,
    ⟨.cfgsq,    0x00000004#32, 0xFFFFFF7F#32⟩,
    ⟨.rdreg,    0x00000005#32, 0xFFFF00FF#32⟩ ]

/-- (CMD AND mask) = match (R73, R77). -/
def OpcodeRow.hit (r : OpcodeRow) (cmd : Word) : Bool := (cmd &&& r.mask) == r.pattern

/-- What PS selects (R75): the internal accumulator, or DATA as the new phase. -/
def phaseSource (ps : Bool) (data : Word) : PhaseSource :=
  if ps then .external data else .internal

/-- The command a row's mnemonic stands for, with PS, POLB, REG and DATA read where it uses them (R72, R75). -/
def Mnemonic.instr (m : Mnemonic) (cmd data : Word) : Instr :=
  match m with
  | .nop => .nop
  | .initSaw => .initSaw data
  | .initRsaw => .initRsaw data
  | .initSq => .initSq data
  | .genSaw => .genSaw (phaseSource (fieldPs cmd) data)
  | .genRsaw => .genRsaw (phaseSource (fieldPs cmd) data)
  | .genSq => .genSq (phaseSource (fieldPs cmd) data)
  | .setph => .setph data
  | .cfgsq => .cfgsq (fieldPolb cmd) data
  | .rdreg => .rdreg (fieldReg cmd).toNat

/-- What decoding answers: a command, or the rejection R77 calls ILLEGAL. -/
inductive Decoded where
  | command (i : Instr)
  | illegal
deriving DecidableEq, Repr

/-- The decoder of R77: the first row that matches, else ILLEGAL. -/
def decode (cmd data : Word) : Decoded :=
  match opcodeTable.find? (fun r => r.hit cmd) with
  | some r => .command (r.mnemonic.instr cmd data)
  | none => .illegal

/-- The instruction the decoder reads from the bits `w` of a table row: CMD is bits 31..0 and DATA bits
63..32, and every bit from `nbits` up is 0 (log 8). -/
def decodeTableWord (nbits w : Nat) : Option Instr :=
  match decode (BitVec.ofNat 32 (w % 2 ^ nbits)) (BitVec.ofNat 32 (w % 2 ^ nbits / 2 ^ 32)) with
  | .command i => some i
  | .illegal => none

/-! ### The encoder (R71, R73, R74) -/

/-- A field placed in a 32-bit word with its lowest bit at bit `lo`. -/
def placeField {n : Nat} (v : BitVec n) (lo : Nat) : Word := v.setWidth 32 <<< lo

/-- A command word from its fields: OP at bit 0, FAM at 4, PS at 6, POLB at 7, REG at 8, RSV = 0 (R71). -/
def packFields (op : BitVec 4) (fam : BitVec 2) (ps polb : Bool) (reg : BitVec 8) : Word :=
  placeField op 0 ||| placeField fam 4 ||| placeField (BitVec.ofBool ps) 6 ||| placeField (BitVec.ofBool polb) 7 |||
    placeField reg 8

/-- FAM of a family (R74). -/
def Family.code : Family → BitVec 2
  | .saw => 0#2
  | .rsaw => 1#2
  | .sq => 2#2

/-- PS of a phase source (R75). -/
def PhaseSource.ps : PhaseSource → Bool
  | .internal => false
  | .external _ => true

/-- DATA of a phase source; 0 where GEN ignores it, as the assembler writes it (R72, R78; log 10). -/
def PhaseSource.data : PhaseSource → Word
  | .internal => 0#32
  | .external ph => ph

/-- The (CMD, DATA) pair of a command: OP 0 NOP, 1 INIT, 2 GEN, 3 SETPH, 4 CFGSQ, 5 RDREG (R71, R73). -/
def encode : Instr → Word × Word
  | .nop => (packFields 0#4 0#2 false false 0#8, 0#32)
  | .initSaw f => (packFields 1#4 (Family.code .saw) false false 0#8, f)
  | .initRsaw f => (packFields 1#4 (Family.code .rsaw) false false 0#8, f)
  | .initSq f => (packFields 1#4 (Family.code .sq) false false 0#8, f)
  | .genSaw src => (packFields 2#4 (Family.code .saw) src.ps false 0#8, src.data)
  | .genRsaw src => (packFields 2#4 (Family.code .rsaw) src.ps false 0#8, src.data)
  | .genSq src => (packFields 2#4 (Family.code .sq) src.ps false 0#8, src.data)
  | .setph ph => (packFields 3#4 0#2 false false 0#8, ph)
  | .cfgsq polb wid => (packFields 4#4 0#2 false polb 0#8, wid)
  | .rdreg reg => (packFields 5#4 0#2 false false (BitVec.ofNat 8 reg), 0#32)

/-! ### Commands by family (R74) -/

/-- INIT of a family (R74). -/
def initOf : Family → Word → Instr
  | .saw, f => .initSaw f
  | .rsaw, f => .initRsaw f
  | .sq, f => .initSq f

/-- GEN of a family (R74). -/
def genOf : Family → PhaseSource → Instr
  | .saw, src => .genSaw src
  | .rsaw, src => .genRsaw src
  | .sq, src => .genSq src

/-- The commands that ignore their DATA word: NOP, RDREG and GEN with PS = 0 (R72). -/
def ignoresData : Instr → Bool
  | .nop => true
  | .initSaw _ => false
  | .initRsaw _ => false
  | .initSq _ => false
  | .genSaw src => !src.ps
  | .genRsaw src => !src.ps
  | .genSq src => !src.ps
  | .setph _ => false
  | .cfgsq _ _ => false
  | .rdreg _ => true

end Sys2Proof
end

