-- ==== Sys2Proof/Machine/Ports.lean ====
section
/-! DEFINITION. What the ports do at one rising edge of clk (20_memory.md R51, R52; 70_reset_and_hazards.md
R190): reset, delivery of a response, acceptance of a command. -/

namespace Sys2Proof.Machine

/-- The output port cmd_ready: 0 while rst = 1 (R190), else the level BLOSC's timing gives it (R52; log 2). -/
def PortEdge.cmdReady (e : PortEdge) : Bool := !e.rst && e.readyLevel

/-- The output port rsp_valid: 0 while rst = 1 (R190), else the level BLOSC's timing gives it (R52; log 2). -/
def PortEdge.rspValid (e : PortEdge) : Bool := !e.rst && e.validLevel

/-- A command is accepted at an edge with rst = 0, cmd_valid = 1 and cmd_ready = 1 (R52). -/
def PortEdge.accepts (e : PortEdge) : Bool := !e.rst && e.cmdValid && e.cmdReady

/-- A response is delivered at an edge with rst = 0, rsp_valid = 1 and rsp_ready = 1 (R52). -/
def PortEdge.takes (e : PortEdge) : Bool := !e.rst && e.rspValid && e.rspReady

/-- The response delivered at the edge: the oldest pending one, since responses come in the order of their
commands (R52, R53); none if nothing is pending (log 5). -/
def deliveredAt (e : PortEdge) (s : State) : Option Response :=
  if e.takes then s.pending.head? else none

/-- The delivered response leaves the block; nothing else changes (R52, R192). -/
def deliver (e : PortEdge) (s : State) : State :=
  if e.takes then { s with pending := s.pending.tail } else s

/-- The reset event: every element of R20 at its reset value, undelivered responses abandoned; the step
table and the host's coming inputs are no state and stay (R190, R34). -/
def State.applyReset (s : State) : State :=
  { State.reset with table := s.table, inputs := s.inputs }

/-- An edge that offers the command word `cmd` with `data`, accepts it, and moves no response. -/
def offerEdge (cmd data : Word) : PortEdge :=
  { rst := false, cmdValid := true, readyLevel := true, cmdWord := cmd, cmdData := data,
    validLevel := false, rspReady := false }

/-- The edge that offers the bits `w` of a table row: CMD bits 31..0, DATA bits 63..32, 0 from `nbits` up
(log 8). -/
def tableWordEdge (nbits w : Nat) : PortEdge :=
  offerEdge (BitVec.ofNat 32 (w % 2 ^ nbits)) (BitVec.ofNat 32 (w % 2 ^ nbits / 2 ^ 32))

end Sys2Proof.Machine
end

