-- ==== Sys2Proof/Machine/Step.lean ====
section
/-! DEFINITION. One step: one rising edge of clk (log 1). -/

namespace Sys2Proof.Machine

/-- An accepted command: decode, then execute, or raise ILLEGAL (30_encoding.md R76, R77). -/
def runCommand (cmd data : Word) (s : State) : Host.Outcome State Fault Refusal :=
  match decode cmd data with
  | .command i => exec i s
  | .illegal => execIllegal s

/-- The next edge of the input list: reset (70_reset_and_hazards.md R190), or deliver a response and then run
an accepted command (20_memory.md R52, R53; log 6). With no edge left nothing changes (R192). -/
def step (s : State) : Host.Outcome State Fault Refusal :=
  match s.inputs with
  | [] => .next s
  | e :: rest =>
    let s1 : State := { s with inputs := rest }
    if e.rst then .next s1.applyReset
    else if e.accepts then runCommand e.cmdWord e.cmdData (deliver e s1)
    else .next (deliver e s1)

/-- `s` with the bits `w` of a table row offered and accepted at the very next edge (log 8). -/
def State.withFetchWord (s : State) (nbits w : Nat) : State :=
  { s with inputs := tableWordEdge nbits w :: s.inputs }

end Sys2Proof.Machine
end

