-- ==== Sys2Proof/Machine/Assembler.lean ====
section
/-! DEFINITION. The assembler of BLOSC: the lines of 30_encoding.md R78, the pseudo-instructions of R79, and
the (CMD, DATA) pair each stands for. The abstract lines come first, the text form after them (log 16). -/

namespace Sys2Proof.Machine

/-- A register name of `rdreg`, or a number 0..255 (R78). -/
inductive RegName where
  | status | mode | phase | freq | width | pol | ring | wptr | id
  | cell (i : Fin 16)
  | slot (j : Fin 32)
  | number (n : BitVec 8)
deriving DecidableEq, Repr

/-- An assembler line: the syntax rows of R78, then the pseudo-instructions of R79. -/
inductive AsmLine where
  | nop
  | init (fam : Family) (f : Word)
  | gen (fam : Family)
  | genExt (fam : Family) (ph : Word)
  | setph (ph : Word)
  | cfgsq (polv : Bool) (wid : Word)
  | rdreg (r : RegName)
  | rdstatus
  | rdphase
  | sq50 (polv : Bool)
  | rephase
deriving DecidableEq, Repr

/-- The number of a register name (R56, R78). -/
def RegName.toNumber : RegName → Nat
  | .status => 0x00
  | .mode => 0x01
  | .phase => 0x02
  | .freq => 0x03
  | .width => 0x04
  | .pol => 0x05
  | .ring => 0x06
  | .wptr => 0x07
  | .id => 0x08
  | .cell i => 0x10 + i.val
  | .slot j => 0x20 + j.val
  | .number n => n.toNat

/-- The one command a line stands for (R78, R79). -/
def AsmLine.instr : AsmLine → Instr
  | .nop => .nop
  | .init fam f => initOf fam f
  | .gen fam => genOf fam .internal
  | .genExt fam ph => genOf fam (.external ph)
  | .setph ph => .setph ph
  | .cfgsq polv wid => .cfgsq polv wid
  | .rdreg r => .rdreg r.toNumber
  | .rdstatus => .rdreg 0x00
  | .rdphase => .rdreg 0x02
  | .sq50 polv => .cfgsq polv 0x80000000#32
  | .rephase => .setph 0#32

/-- The (CMD, DATA) pair of a line (R78). -/
def assemble (l : AsmLine) : Word × Word := encode l.instr

/-! ### Text form -/

/-- A token ends where its characters, kept in reverse, end; no characters make no token. -/
def flushToken (acc : List Char) : List String :=
  match acc with
  | [] => []
  | _ => [String.ofList acc.reverse]

/-- Tokens of a line: runs of characters other than a space and a comma, and each comma (log 16). -/
def tokensFrom : List Char → List Char → List String
  | [], acc => flushToken acc
  | ch :: rest, acc =>
    if ch = ' ' then flushToken acc ++ tokensFrom rest []
    else if ch = ',' then flushToken acc ++ "," :: tokensFrom rest []
    else tokensFrom rest (ch :: acc)

/-- The value of a digit below `base`; hexadecimal letters in either case (log 16). -/
def digitValue (base : Nat) (ch : Char) : Option Nat :=
  let n := ch.toNat
  let v := if 48 ≤ n ∧ n ≤ 57 then n - 48
    else if 97 ≤ n ∧ n ≤ 102 then n - 87
    else if 65 ≤ n ∧ n ≤ 70 then n - 55
    else base
  if v < base then some v else none

/-- The value of a run of digits after `acc`. -/
def digitsValue (base : Nat) : List Char → Nat → Option Nat
  | [], acc => some acc
  | ch :: rest, acc =>
    match digitValue base ch with
    | some v => digitsValue base rest (acc * base + v)
    | none => none

/-- A number, decimal or 0x hexadecimal, below `bound` (R78); leading zeros are read (log 16). -/
def parseNumber (bound : Nat) (tok : String) : Option Nat :=
  let v := match tok.toList with
    | [] => none
    | ['0', 'x'] => none
    | '0' :: 'x' :: digits => digitsValue 16 digits 0
    | digits => digitsValue 10 digits 0
  match v with
  | some n => if n < bound then some n else none
  | none => none

/-- A u32 operand (R78). -/
def parseWord (tok : String) : Option Word := (parseNumber (2 ^ 32) tok).map (BitVec.ofNat 32)

/-- POLV: 0, 1, `pos` = 0 or `neg` = 1 (R78). DESIGN CHOICE: 0 and 1 are these tokens as R78 writes them; no
other spelling of the two numbers, such as 0x1 or 01, is read (log 16). -/
def parsePolarity (tok : String) : Option Bool :=
  match tok with
  | "0" => some false
  | "1" => some true
  | "pos" => some false
  | "neg" => some true
  | _ => none

/-- `cell0` .. `cell15`, `slot0` .. `slot31`, or a number 0..255 (R78). DESIGN CHOICE: the index of a cell or slot
is decimal and may carry leading zeros, as any decimal number here may (log 16). -/
def parseIndexedRegister (tok : String) : Option RegName :=
  match tok.toList with
  | 'c' :: 'e' :: 'l' :: 'l' :: digits =>
    match digits, digitsValue 10 digits 0 with
    | _ :: _, some n => if h : n < 16 then some (.cell ⟨n, h⟩) else none
    | _, _ => none
  | 's' :: 'l' :: 'o' :: 't' :: digits =>
    match digits, digitsValue 10 digits 0 with
    | _ :: _, some n => if h : n < 32 then some (.slot ⟨n, h⟩) else none
    | _, _ => none
  | _ => (parseNumber 256 tok).map fun n => .number (BitVec.ofNat 8 n)

/-- A register name of `rdreg` (R78). -/
def parseRegister (tok : String) : Option RegName :=
  match tok with
  | "status" => some .status
  | "mode" => some .mode
  | "phase" => some .phase
  | "freq" => some .freq
  | "width" => some .width
  | "pol" => some .pol
  | "ring" => some .ring
  | "wptr" => some .wptr
  | "id" => some .id
  | _ => parseIndexedRegister tok

/-- `init.x F` (R78). -/
def parseInit (fam : Family) (args : List String) : Option AsmLine :=
  match args with
  | [f] => (parseWord f).map (.init fam)
  | _ => none

/-- `gen.x` or `gen.x ext, PH` (R78). -/
def parseGen (fam : Family) (args : List String) : Option AsmLine :=
  match args with
  | [] => some (.gen fam)
  | ["ext", ",", ph] => (parseWord ph).map (.genExt fam)
  | _ => none

/-- `cfgsq POLV, WID` (R78). -/
def parseCfgsq (args : List String) : Option AsmLine :=
  match args with
  | [polv, ",", wid] =>
    match parsePolarity polv, parseWord wid with
    | some p, some w => some (.cfgsq p w)
    | _, _ => none
  | _ => none

/-- A line from its tokens (R78, R79). -/
def parseTokens (toks : List String) : Option AsmLine :=
  match toks with
  | [] => none
  | op :: args =>
    match op with
    | "nop" => if args = [] then some .nop else none
    | "init.saw" => parseInit .saw args
    | "init.rsaw" => parseInit .rsaw args
    | "init.sq" => parseInit .sq args
    | "gen.saw" => parseGen .saw args
    | "gen.rsaw" => parseGen .rsaw args
    | "gen.sq" => parseGen .sq args
    | "setph" => match args with
      | [ph] => (parseWord ph).map .setph
      | _ => none
    | "cfgsq" => parseCfgsq args
    | "rdreg" => match args with
      | [r] => (parseRegister r).map .rdreg
      | _ => none
    | "rdstatus" => if args = [] then some .rdstatus else none
    | "rdphase" => if args = [] then some .rdphase else none
    | "sq50" => match args with
      | [polv] => (parsePolarity polv).map .sq50
      | _ => none
    | "rephase" => if args = [] then some .rephase else none
    | _ => none

/-- A line of text, if it is one of the syntax rows (R78, R79). -/
def parseLine (text : String) : Option AsmLine := parseTokens (tokensFrom text.toList [])

end Sys2Proof.Machine
end

