-- ==== Sys2Proof/Machine/Instances.lean ====
section
/-! DEFINITION. Several BLOSC blocks side by side: the product of independent single-instance machines
(20_memory.md R65, 60_exceptions.md R184; log 15). -/

namespace Sys2Proof.Machine

/-- One clock edge of instance `n` of a bank; an instance that is not there does nothing (R65). -/
def stepAt (n : Nat) (bank : List State) : Host.Outcome (List State) Fault Refusal :=
  match bank[n]? with
  | none => .next bank
  | some s =>
    match step s with
    | .next t => .next (bank.set n t)
    | .fault r => .fault r
    | .refused r => .refused r

/-- Every instance of the bank reads the same step table (R65). -/
def sharesTable (t : StepTable) (bank : List State) : Prop := ∀ s ∈ bank, s.table = t

end Sys2Proof.Machine
end

