-- ==== Sys2Proof/Safety.lean ====
section
/-! DEFINITION. What counts as a safe run, in the terms the statements use: the invariants of 10_state.md
R36 and R37, the corrections owed to coming samples, and runs of commands. -/

namespace Sys2Proof.Machine

/-! ### Live slots and owed corrections -/

/-- The live slot of insertion order j: SLOT[(HEAD + j) mod E] (R33). -/
def liveSlot (s : State) (j : Nat) : Slot := slotAt s.slots (wrap 32 s.head.toNat j)

/-- The live slots from oldest to newest (R33). -/
def liveSlots (s : State) : List Slot := (List.range s.count.toNat).map (liveSlot s)

/-- The value of CELL[(WPTR + j) mod W]: the correction held for the sample j GENs from now (R29). -/
def dueCell (s : State) (j : Nat) : Int := (cellAt s.cells (wrap 16 s.wptr.toNat j)).toInt

/-- What an event of a slot owes the sample j GENs from now: contrib(FRAC, AGE + j, RISING) while
AGE + j <= W - 1, nothing after (R37). -/
def tapOwed (t : StepTable) (j : Nat) (e : Slot) : Int :=
  if e.age.toNat + j ≤ 15 then contrib t e.frac (e.age.toNat + j) e.rising else 0

/-- The sum over the live slots of what each owes the sample j GENs from now (R37). -/
def owed (s : State) (j : Nat) : Int := ((liveSlots s).map (tapOwed s.table j)).sum

/-- Tap k of every event of a list, summed (R97, R107). -/
def tapSum (t : StepTable) (k : Nat) (evs : List StepEvent) : Int :=
  (evs.map fun e => contrib t e.frac k e.rising).sum

/-- The events a GEN of the family would detect from `s` (R103). -/
def eventsOf (fam : Family) (src : PhaseSource) (s : State) : List StepEvent :=
  detect fam s (newPhase src s) (increment src s)

/-! ### Invariants (R36, R37) -/

/-- R36 (1): COUNT <= E and TAIL = (HEAD + COUNT) mod E. -/
abbrev RingOk (s : State) : Prop :=
  s.count.toNat ≤ 32 ∧ s.tail.toNat = wrap 32 s.head.toNat s.count.toNat

/-- R36 (2) and (3): every live slot has 1 <= AGE <= W, and AGE never increases from oldest to newest. -/
abbrev AgesOk (s : State) : Prop :=
  (∀ j < s.count.toNat, 1 ≤ (liveSlot s j).age.toNat ∧ (liveSlot s j).age.toNat ≤ 16) ∧
  (∀ j < s.count.toNat - 1, (liveSlot s (j + 1)).age.toNat ≤ (liveSlot s j).age.toNat)

/-- At most two live slots have the same AGE: a GEN inserts at most two events (R103, R113). -/
abbrev TwoPerSample (s : State) : Prop :=
  ∀ j < s.count.toNat - 2, (liveSlot s (j + 2)).age.toNat < (liveSlot s j).age.toNat

/-- R36 (4): FREQ <= FREQ_MAX. -/
abbrev FreqOk (s : State) : Prop := s.freq.toNat ≤ Config.freqMax.toNat

/-- R36 (5): MODE = NONE implies COUNT = 0 and every cell 0. -/
abbrev ModeOk (s : State) : Prop :=
  s.mode = .none → s.count.toNat = 0 ∧ ∀ j < 16, cellAt s.cells j = 0#32

/-- R36 (6): CAUSE is 0 exactly while FAULT = 0; a cause of the type is one of 1..5 by construction. -/
abbrev StatusOk (s : State) : Prop := s.fault = s.cause.isSome

/-- R37: each cell holds exactly what the live events owe its sample. -/
abbrev CellsOk (s : State) : Prop := ∀ j < 16, dueCell s j = owed s j

/-- The invariant of BLOSC: R36 and R37, with the bound on events of one sample they rest on. -/
structure Inv (s : State) : Prop where
  ring   : RingOk s
  ages   : AgesOk s
  two    : TwoPerSample s
  freq   : FreqOk s
  mode   : ModeOk s
  status : StatusOk s
  cells  : CellsOk s

/-! ### Runs of commands -/

/-- The state after one command; `exec` always answers a next state. -/
def after (i : Instr) (s : State) : State :=
  match exec i s with
  | .next t => t
  | .fault _ => s
  | .refused _ => s

/-- The state after a list of commands, in order (20_memory.md R60). -/
def afterAll (is : List Instr) (s : State) : State := is.foldl (fun s i => after i s) s

/-- PHASE after n consecutive GENs of a family with PS = 0 (40_datapath.md R92). -/
def phaseAfter (fam : Family) (n : Nat) (s : State) : Word :=
  (afterAll (List.replicate n (genOf fam .internal)) s).phase

/-- How many of n consecutive GENs with PS = 0 wrap, a wrap being a GEN whose p1 < p0 (40_datapath.md R92). -/
def wrapCount (fam : Family) (n : Nat) (s : State) : Nat :=
  ((List.range n).filter fun m =>
    decide ((phaseAfter fam (m + 1) s).toNat < (phaseAfter fam m s).toNat)).length

/-- A GEN of the family may run: no fault, the family's MODE, and an external phase at most FREQ_MAX ahead
of PHASE (42_generate.md R130). -/
def GenReady (fam : Family) (src : PhaseSource) (s : State) : Prop :=
  s.fault = false ∧ s.mode = familyMode fam ∧
    ∀ ph, src = .external ph → (ph - s.phase).toNat ≤ Config.freqMax.toNat

/-! ### The history of a run (40_datapath.md R114) -/

/-- A GEN of the family that produces a sample; a faulting or refused GEN has no effect and is not numbered. -/
def genRuns (fam : Family) (src : PhaseSource) (s : State) : Bool :=
  !s.fault && decide (s.mode = familyMode fam) && !outOfRange src s

/-- The events of a GEN put before those of the earlier ones; an INIT that is not refused starts anew (R114). -/
def noteEvents (i : Instr) (s : State) (hist : List (List StepEvent)) : List (List StepEvent) :=
  match i with
  | .initSaw _ => if s.fault then hist else []
  | .initRsaw _ => if s.fault then hist else []
  | .initSq _ => if s.fault then hist else []
  | .genSaw src => if genRuns .saw src s then eventsOf .saw src s :: hist else hist
  | .genRsaw src => if genRuns .rsaw src s then eventsOf .rsaw src s :: hist else hist
  | .genSq src => if genRuns .sq src s then eventsOf .sq src s :: hist else hist
  | .nop => hist
  | .setph _ => hist
  | .cfgsq _ _ => hist
  | .rdreg _ => hist

/-- A list of commands run from a state, with the events of every GEN since the last INIT, newest first. -/
def runHistory : List Instr → State → List (List StepEvent) → State × List (List StepEvent)
  | [], s, hist => (s, hist)
  | i :: is, s, hist => runHistory is (after i s) (noteEvents i s hist)

/-- The sum of R114's closed form: tap n - m of the events of GEN m, over the last W GENs. -/
def closedCorrection (t : StepTable) (hist : List (List StepEvent)) : Int :=
  ((hist.take 16).zipIdx.map fun p => tapSum t p.2 p.1).sum

/-! ### Outcomes of a command that the statements share -/

/-- A response added behind the pending ones, nothing else changed. -/
def answered (err : Bool) (data : Word) (s : State) : State :=
  { s with pending := s.pending ++ [⟨err, data⟩] }

/-- A fault with cause c recorded in an unfaulted state: FAULT, CAUSE, response (1, 0), nothing else
(60_exceptions.md R172, R175, R176). -/
def faultedBy (c : Cause) (s : State) : State :=
  { s with fault := true, cause := some c, pending := s.pending ++ [⟨true, 0#32⟩] }

/-! ### Relations between two states -/

/-- Two states alike in everything but the contents of slots outside the live range (R33). -/
structure AgreeOnLive (s t : State) : Prop where
  rest : t = { s with slots := t.slots }
  live : ∀ j < s.count.toNat, liveSlot s j = liveSlot t j

/-- `t` is the reverse-sawtooth mirror of the sawtooth state `s`: the same phase history, every live event
and every cell negated (42_generate.md R132). -/
structure MirrorOf (s t : State) : Prop where
  phase : t.phase = s.phase
  freq  : t.freq = s.freq
  modes : s.mode = .saw ∧ t.mode = .rsaw
  fault : t.fault = s.fault
  wptr  : t.wptr = s.wptr
  ring  : t.head = s.head ∧ t.tail = s.tail ∧ t.count = s.count
  table : t.table = s.table
  live  : ∀ j < s.count.toNat, (liveSlot t j).frac = (liveSlot s j).frac ∧
            (liveSlot t j).rising = !(liveSlot s j).rising ∧ (liveSlot t j).age = (liveSlot s j).age
  cells : ∀ j < 16, dueCell t j = -dueCell s j

end Sys2Proof.Machine
end

