-- ==== Sys2Proof/Certificates/Slice0/Obligations.lean ====
section
/-! DEFINITION. The statements for the provers, in the order of spec/. `Inv` is the invariant of R36 and R37
(Safety.lean); a statement that has it as a premise could fail only in states no run reaches, and
`StepKeepsInv` and `InvHoldsAtReset` state that no run leaves it. The step table is a field of the state, so
every statement holds for every table (log 3). -/

open Sys2Proof Sys2Proof.Machine

/-! ### Encoding (30_encoding.md) -/

/-- Decoding an encoded well-formed command gives it back, every operand at every value (R71, R73, R77). -/
def Obligations.DecodeOfEncodeIsIdentity : Prop :=
  ∀ i : Instr, WellFormed i = true → decode (encode i).1 (encode i).2 = .command i

/-- A pair of words that decodes is the encoding of what it decodes to, but for a DATA word the command
ignores, which the encoder writes as 0 (R72, R73, R77; log 10). -/
def Obligations.EncodeOfDecodeIsIdentity : Prop :=
  ∀ (cmd data : Word) (i : Instr), decode cmd data = .command i →
    WellFormed i = true ∧ (encode i).1 = cmd ∧ (encode i).2 = (if ignoresData i then 0#32 else data)

/-- The opcode map, row by row, every other word illegal, and no word matched by two rows (R73). -/
def Obligations.OpcodeMapDecodesByMaskAndMatch : Prop :=
  (∀ cmd data : Word,
    (cmd = 0x00000000#32 → decode cmd data = .command .nop) ∧
    (cmd = 0x00000001#32 → decode cmd data = .command (.initSaw data)) ∧
    (cmd = 0x00000011#32 → decode cmd data = .command (.initRsaw data)) ∧
    (cmd = 0x00000021#32 → decode cmd data = .command (.initSq data)) ∧
    (cmd &&& 0xFFFFFFBF#32 = 0x00000002#32 → decode cmd data =
      .command (.genSaw (if cmd.getLsbD 6 then .external data else .internal))) ∧
    (cmd &&& 0xFFFFFFBF#32 = 0x00000012#32 → decode cmd data =
      .command (.genRsaw (if cmd.getLsbD 6 then .external data else .internal))) ∧
    (cmd &&& 0xFFFFFFBF#32 = 0x00000022#32 → decode cmd data =
      .command (.genSq (if cmd.getLsbD 6 then .external data else .internal))) ∧
    (cmd = 0x00000003#32 → decode cmd data = .command (.setph data)) ∧
    (cmd &&& 0xFFFFFF7F#32 = 0x00000004#32 → decode cmd data = .command (.cfgsq (cmd.getLsbD 7) data)) ∧
    (cmd &&& 0xFFFF00FF#32 = 0x00000005#32 → decode cmd data = .command (.rdreg (cmd.toNat / 256))) ∧
    ((∀ r ∈ opcodeTable, cmd &&& r.mask ≠ r.pattern) → decode cmd data = .illegal)) ∧
  (∀ (cmd : Word) (r r' : OpcodeRow), r ∈ opcodeTable → r' ∈ opcodeTable →
    cmd &&& r.mask = r.pattern → cmd &&& r'.mask = r'.pattern → r = r')

/-- A word is illegal exactly when OP is unassigned, FAM is 3 with OP in {1, 2}, or a bit its row fixes at 0
is set; DATA plays no part. Executing it raises ILLEGAL: response (1, 0), the cause recorded if BLOSC is
unfaulted, nothing else (R76). -/
def Obligations.IllegalWordsAreExactlyTheReservedOnes : Prop :=
  ∀ (cmd data : Word),
    (decode cmd data = .illegal ↔
      6 ≤ (fieldOp cmd).toNat ∨
      (((fieldOp cmd).toNat = 1 ∨ (fieldOp cmd).toNat = 2) ∧ (fieldFam cmd).toNat = 3) ∨
      fieldRsv cmd ≠ 0#16 ∨
      ((fieldOp cmd).toNat ≠ 5 ∧ fieldReg cmd ≠ 0#8) ∨
      ((fieldOp cmd).toNat ≠ 4 ∧ fieldPolb cmd = true) ∨
      ((fieldOp cmd).toNat ≠ 2 ∧ fieldPs cmd = true) ∨
      ((fieldOp cmd).toNat ≠ 1 ∧ (fieldOp cmd).toNat ≠ 2 ∧ fieldFam cmd ≠ 0#2)) ∧
    (decode cmd data = .illegal → ∀ s : State,
      (s.fault = false → runCommand cmd data s = .next (faultedBy .illegal s)) ∧
      (s.fault = true → runCommand cmd data s = .next (answered true 0#32 s)))

/-- DATA decides nothing about whether a word is legal, and a command that ignores it is the same command
whatever it holds (R72, R77). -/
def Obligations.IgnoredDataHasNoEffect : Prop :=
  ∀ (cmd data data' : Word),
    (decode cmd data = .illegal ↔ decode cmd data' = .illegal) ∧
    (∀ i, decode cmd data = .command i → ignoresData i = true → decode cmd data' = .command i)

/-- The example encodings of R80: each line of assembly assembles to its (CMD, DATA) pair, which decodes to
the command meant; each illegal word is rejected. -/
def Obligations.ExampleEncodingsDecode : Prop :=
  ((parseLine "nop").map assemble = some (0x00000000#32, 0x00000000#32) ∧
    decode 0x00000000#32 0x00000000#32 = .command .nop) ∧
  ((parseLine "init.saw 0x10000000").map assemble = some (0x00000001#32, 0x10000000#32) ∧
    decode 0x00000001#32 0x10000000#32 = .command (.initSaw 0x10000000#32)) ∧
  ((parseLine "init.rsaw 0x10000000").map assemble = some (0x00000011#32, 0x10000000#32) ∧
    decode 0x00000011#32 0x10000000#32 = .command (.initRsaw 0x10000000#32)) ∧
  ((parseLine "init.sq 0x05CE13BD").map assemble = some (0x00000021#32, 0x05CE13BD#32) ∧
    decode 0x00000021#32 0x05CE13BD#32 = .command (.initSq 0x05CE13BD#32)) ∧
  ((parseLine "gen.saw").map assemble = some (0x00000002#32, 0x00000000#32) ∧
    decode 0x00000002#32 0x00000000#32 = .command (.genSaw .internal)) ∧
  ((parseLine "gen.saw ext, 0x40000000").map assemble = some (0x00000042#32, 0x40000000#32) ∧
    decode 0x00000042#32 0x40000000#32 = .command (.genSaw (.external 0x40000000#32))) ∧
  ((parseLine "gen.rsaw").map assemble = some (0x00000012#32, 0x00000000#32) ∧
    decode 0x00000012#32 0x00000000#32 = .command (.genRsaw .internal)) ∧
  ((parseLine "gen.sq").map assemble = some (0x00000022#32, 0x00000000#32) ∧
    decode 0x00000022#32 0x00000000#32 = .command (.genSq .internal)) ∧
  ((parseLine "gen.sq ext, 0x12345678").map assemble = some (0x00000062#32, 0x12345678#32) ∧
    decode 0x00000062#32 0x12345678#32 = .command (.genSq (.external 0x12345678#32))) ∧
  ((parseLine "setph 0xF0000000").map assemble = some (0x00000003#32, 0xF0000000#32) ∧
    decode 0x00000003#32 0xF0000000#32 = .command (.setph 0xF0000000#32)) ∧
  ((parseLine "cfgsq 0, 0x80000000").map assemble = some (0x00000004#32, 0x80000000#32) ∧
    decode 0x00000004#32 0x80000000#32 = .command (.cfgsq false 0x80000000#32)) ∧
  ((parseLine "cfgsq neg, 0x40000000").map assemble = some (0x00000084#32, 0x40000000#32) ∧
    decode 0x00000084#32 0x40000000#32 = .command (.cfgsq true 0x40000000#32)) ∧
  ((parseLine "rdreg status").map assemble = some (0x00000005#32, 0x00000000#32) ∧
    decode 0x00000005#32 0x00000000#32 = .command (.rdreg 0x00)) ∧
  ((parseLine "rdreg cell3").map assemble = some (0x00001305#32, 0x00000000#32) ∧
    decode 0x00001305#32 0x00000000#32 = .command (.rdreg 0x13)) ∧
  ((parseLine "rdreg slot0").map assemble = some (0x00002005#32, 0x00000000#32) ∧
    decode 0x00002005#32 0x00000000#32 = .command (.rdreg 0x20)) ∧
  ((parseLine "rdreg id").map assemble = some (0x00000805#32, 0x00000000#32) ∧
    decode 0x00000805#32 0x00000000#32 = .command (.rdreg 0x08)) ∧
  decode 0x00000006#32 0#32 = .illegal ∧ decode 0x00000031#32 0#32 = .illegal ∧
  decode 0x00000041#32 0#32 = .illegal ∧ decode 0x00010002#32 0#32 = .illegal ∧
  decode 0x00000102#32 0#32 = .illegal ∧ decode 0x00000080#32 0#32 = .illegal

/-- The (CMD, DATA) pair of every syntax row of R78, every register name and every pseudo-instruction of R79,
at every operand; each pair decodes to the one command the line stands for, and a pseudo-instruction is the
line it expands to (R56, R78, R79). -/
def Obligations.AssemblerLinesDecodeToTheirCommand : Prop :=
  (∀ l : AsmLine, decode (assemble l).1 (assemble l).2 = .command l.instr) ∧
  assemble .nop = (0x00000000#32, 0#32) ∧
  (∀ f : Word, assemble (.init .saw f) = (0x00000001#32, f) ∧ assemble (.init .rsaw f) = (0x00000011#32, f) ∧
    assemble (.init .sq f) = (0x00000021#32, f)) ∧
  assemble (.gen .saw) = (0x00000002#32, 0#32) ∧ assemble (.gen .rsaw) = (0x00000012#32, 0#32) ∧
  assemble (.gen .sq) = (0x00000022#32, 0#32) ∧
  (∀ ph : Word, assemble (.genExt .saw ph) = (0x00000042#32, ph) ∧
    assemble (.genExt .rsaw ph) = (0x00000052#32, ph) ∧ assemble (.genExt .sq ph) = (0x00000062#32, ph) ∧
    assemble (.setph ph) = (0x00000003#32, ph)) ∧
  (∀ wid : Word, assemble (.cfgsq false wid) = (0x00000004#32, wid) ∧
    assemble (.cfgsq true wid) = (0x00000084#32, wid)) ∧
  (∀ r : RegName, assemble (.rdreg r) = (BitVec.ofNat 32 (5 + 2 ^ 8 * (match r with
    | .status => 0x00
    | .mode => 0x01
    | .phase => 0x02
    | .freq => 0x03
    | .width => 0x04
    | .pol => 0x05
    | .ring => 0x06
    | .wptr => 0x07
    | .id => 0x08
    | .cell i => 0x10 + i.val
    | .slot j => 0x20 + j.val
    | .number n => n.toNat)), 0#32)) ∧
  assemble .rdstatus = assemble (.rdreg .status) ∧
  assemble .rdphase = assemble (.rdreg .phase) ∧
  (∀ polv, assemble (.sq50 polv) = assemble (.cfgsq polv 0x80000000#32)) ∧
  assemble .rephase = assemble (.setph 0#32)

/-! ### Ports, order and reset (20_memory.md, 70_reset_and_hazards.md) -/

/-- At an edge that accepts a command, the step delivers a response if one is taken and then is `exec` of the
command the words decode to; of words that are illegal, it raises ILLEGAL (R52, R53, R76, R77). -/
def Obligations.StepRunsTheDecodedCommand : Prop :=
  ∀ (s : State) (e : PortEdge) (rest : List PortEdge), s.inputs = e :: rest →
    e.rst = false → e.cmdValid = true → e.cmdReady = true →
    (∀ i, decode e.cmdWord e.cmdData = .command i →
      step s = exec i { s with
        inputs := rest
        pending := if e.rspValid && e.rspReady then s.pending.tail else s.pending }) ∧
    (decode e.cmdWord e.cmdData = .illegal →
      step s = .next (raiseFault .illegal { s with
        inputs := rest
        pending := if e.rspValid && e.rspReady then s.pending.tail else s.pending }))

/-- Reset, from any state whatever and whatever the levels of BLOSC's timing: every element at its reset value,
cmd_ready = 0 and rsp_valid = 0, so no command accepted and no response delivered, undelivered responses abandoned, the step table and the coming inputs kept (R190). -/
def Obligations.ResetEdgeGivesTheResetValues : Prop :=
  ∀ (s : State) (e : PortEdge) (rest : List PortEdge), s.inputs = e :: rest → e.rst = true →
    e.cmdReady = false ∧ e.rspValid = false ∧ e.accepts = false ∧ deliveredAt e s = none ∧
    step s = .next {
      phase := 0#32, freq := 0#32, width := 0x80000000#32, pol := false, mode := .none
      fault := false, clamp := false, cause := none
      cells := Vector.replicate 16 0#32, wptr := 0#4
      slots := Vector.replicate 32 ⟨0#4, false, 0#5⟩, head := 0#5, tail := 0#5, count := 0#6
      table := s.table, inputs := rest, pending := [] }

/-- Without a command accepted and without reset, every state element keeps its value; an edge that holds a
response changes nothing either (R192). Two clauses are the model's choice and no rule's: that a step with no
edge left changes nothing (log 1), and that a take with no response pending takes nothing (log 5). -/
def Obligations.OnlyCommandsAndResetChangeTheState : Prop :=
  (∀ s : State, s.inputs = [] → step s = .next s) ∧
  (∀ (s : State) (e : PortEdge) (rest : List PortEdge), s.inputs = e :: rest →
    e.rst = false → (e.cmdValid && e.cmdReady) = false →
    step s = .next { s with
      inputs := rest
      pending := if e.rspValid && e.rspReady then s.pending.tail else s.pending })

/-- Responses come one per accepted command, in order: an edge without reset takes at most the oldest pending
response, adds exactly one behind the others if it accepts a command and none otherwise, and loses none
(R52, R53, R202). -/
def Obligations.ResponsesComeOncePerCommandInOrder : Prop :=
  ∀ (s : State) (e : PortEdge) (rest : List PortEdge), s.inputs = e :: rest → e.rst = false →
    ∃ (t : State) (new : List Response), step s = .next t ∧ t.inputs = rest ∧
      new.length = (if e.cmdValid && e.cmdReady then 1 else 0) ∧
      (deliveredAt e s).toList ++ t.pending = s.pending ++ new

/-- No edge stops the machine: every fault of BLOSC is a next state (R170, R172, R177; log 12). -/
def Obligations.EveryEdgeAnswersANextState : Prop := ∀ s : State, ∃ t : State, step s = .next t

/-- Several instances: a step of one is its own single-instance step, leaves every other as it was, and keeps a
step table they share shared; a step of one that is not there changes nothing (R65, R184; log 15). -/
def Obligations.InstancesAreIndependent : Prop :=
  ∀ (n : Nat) (bank : List State), ∃ bank', stepAt n bank = .next bank' ∧ bank'.length = bank.length ∧
    (∀ s, bank[n]? = some s → ∃ t, step s = .next t ∧ bank'[n]? = some t) ∧
    (bank[n]? = none → bank' = bank) ∧
    (∀ m, m ≠ n → bank'[m]? = bank[m]?) ∧
    (∀ tbl, sharesTable tbl bank → sharesTable tbl bank')

/-! ### Datapath (40_datapath.md) -/

/-- The naive values of R99. -/
def Obligations.NaiveValuesOfEachFamily : Prop :=
  ∀ (s : State) (p1 : Word),
    naive .saw s p1 = (p1.toNat / 65536 : Nat) - 32768 ∧
    naive .rsaw s p1 = 32767 - (p1.toNat / 65536 : Nat) ∧
    naive .sq s p1 = (if (p1.toNat < s.width.toNat ↔ s.pol = false) then 32767 else -32768) ∧
    naive .rsaw s p1 = -1 - naive .saw s p1

/-- A correction is the signed entry of the step table, doubled: plus for a rising step, minus for a falling one
with the same offset and tap, always within 65536 of 0 (R96, R97). -/
def Obligations.ContributionIsTwiceTheSignedEntry : Prop :=
  ∀ (t : StepTable) (f k : Fin 16),
    contrib t (BitVec.ofNat 4 f.val) k.val true = 2 * (t[f][k]).toInt ∧
    contrib t (BitVec.ofNat 4 f.val) k.val false = -(2 * (t[f][k]).toInt) ∧
    (∀ r, -65536 ≤ contrib t (BitVec.ofNat 4 f.val) k.val r ∧ contrib t (BitVec.ofNat 4 f.val) k.val r ≤ 65536)

/-- The crossing test says that the boundary lies in the half-open forward arc (p0, p1] of length d; an edge
exactly at p1 is crossed, one exactly at p0 is not, and d = 0 crosses nothing (R101). -/
def Obligations.CrossedMeansInTheForwardArc : Prop :=
  ∀ (p0 d b : Word) (r : Bool),
    (crossed (p0 + d) d ⟨b, r⟩ = decide ((p0 + d - b).toNat < d.toNat)) ∧
    (crossed (p0 + d) d ⟨b, r⟩ = true ↔ ∃ k : Nat, 1 ≤ k ∧ k ≤ d.toNat ∧ b = p0 + BitVec.ofNat 32 k) ∧
    (d ≠ 0#32 → crossed (p0 + d) d ⟨p0 + d, r⟩ = true) ∧
    crossed (p0 + d) d ⟨p0, r⟩ = false ∧
    crossed p0 0#32 ⟨b, r⟩ = false

/-- The fractional offset of a crossed edge is the exact floor quotient, in 0..15 (R102). -/
def Obligations.FracIsTheFloorQuotient : Prop :=
  ∀ (p1 d : Word) (e : Edge), crossed p1 d e = true →
    (fracOf p1 d e).toNat = 16 * (p1 - e.boundary).toNat / d.toNat ∧
    16 * (p1 - e.boundary).toNat / d.toNat < 16

/-- For SAW and RSAW the edge at 0 is crossed, and one event detected, exactly when the phase wraps; for d >= 1
that is p1 < p0 (R104). -/
def Obligations.SawEdgeIsCrossedExactlyAtAWrap : Prop :=
  ∀ (fam : Family) (s : State) (p0 d : Word), fam = .saw ∨ fam = .rsaw →
    ((detect fam s (p0 + d) d).length = 1 ↔ 2 ^ 32 ≤ p0.toNat + d.toNat) ∧
    (detect fam s (p0 + d) d = [] ↔ p0.toNat + d.toNat < 2 ^ 32) ∧
    (d ≠ 0#32 → (2 ^ 32 ≤ p0.toNat + d.toNat ↔ (p0 + d).toNat < p0.toNat))

/-- What the detector answers: the crossed edges of the family in the order of R100, each with its fractional
offset; at WIDTH = 0 the square's two events come together with equal offset and opposite polarity, cancel in
every tap, and the level is the same at every phase (R100, R103). -/
def Obligations.DetectorAnswersTheCrossedEdgesInOrder : Prop :=
  ∀ (s : State) (p1 d : Word),
    detect .saw s p1 d = (if p1.toNat < d.toNat then [⟨fracOf p1 d ⟨0#32, false⟩, false⟩] else []) ∧
    detect .rsaw s p1 d = (if p1.toNat < d.toNat then [⟨fracOf p1 d ⟨0#32, true⟩, true⟩] else []) ∧
    detect .sq s p1 d =
      (if p1.toNat < d.toNat then [⟨fracOf p1 d ⟨0#32, !s.pol⟩, !s.pol⟩] else []) ++
      (if (p1 - s.width).toNat < d.toNat then [⟨fracOf p1 d ⟨s.width, s.pol⟩, s.pol⟩] else []) ∧
    (s.width = 0#32 →
      naive .sq s p1 = (if s.pol then 32767 else -32768) ∧
      (∀ t k, tapSum t k (detect .sq s p1 d) = 0) ∧
      (detect .sq s p1 d = [] ∨ ∃ f, detect .sq s p1 d = [⟨f, !s.pol⟩, ⟨f, s.pol⟩]))

/-- An external phase that moves backward by up to half a cycle faults RANGE; one equal to PHASE is legal,
detects nothing, and the GEN runs (R200, R91). -/
def Obligations.ExternalPhaseBackwardFaultsRange : Prop :=
  ∀ (fam : Family) (s : State), s.fault = false → s.mode = familyMode fam →
    (∀ k : Nat, 1 ≤ k → k ≤ 2 ^ 31 →
      exec (genOf fam (.external (s.phase - BitVec.ofNat 32 k))) s = .next (faultedBy .range s)) ∧
    eventsOf fam (.external s.phase) s = [] ∧
    (Inv s → ∃ t, exec (genOf fam (.external s.phase)) s = .next t ∧ t.fault = false ∧ t.phase = s.phase)

/-- OVERFLOW is never raised: in a state of the invariant at most 30 events are live after retirement, every
GEN's events fit, and no command records OVERFLOW (R106, R113). -/
def Obligations.CapacityIsNeverExceeded : Prop :=
  (∀ (fam : Family) (src : PhaseSource) (s : State), Inv s →
    (retire s).count.toNat ≤ 30 ∧ (retire s).count.toNat + (eventsOf fam src s).length ≤ 32) ∧
  (∀ (i : Instr) (s t : State), Inv s → exec i s = .next t → t.cause = some .overflow → s.cause = some .overflow)

/-- No cell comes near the s32 bound: in a state of the invariant every cell lies within 2^21 of 0, as does
every partial sum an insertion of this GEN's events makes, so the cell adds are exact (R112). -/
def Obligations.CellsNeverReachTheirBound : Prop :=
  ∀ (fam : Family) (src : PhaseSource) (s : State), Inv s →
    (∀ i < 16, -2 ^ 21 ≤ (cellAt s.cells i).toInt ∧ (cellAt s.cells i).toInt ≤ 2 ^ 21) ∧
    (∀ (n i : Nat), i < 16 →
      -2 ^ 21 ≤ (cellAt (insertAll ((eventsOf fam src s).take n) (retire s)).cells i).toInt ∧
      (cellAt (insertAll ((eventsOf fam src s).take n) (retire s)).cells i).toInt ≤ 2 ^ 21)

/-- The closed form of the output, from any state of the invariant with an empty ring (reset, or after an
INIT), over any commands: the next GEN of the family in force answers y, the value x clipped to -32768..32767,
where x is the naive value plus tap n - m of every event of the last 16 GENs; that sum is what one tap per
sample per live event gives (R114). -/
def Obligations.OutputIsTheClosedFormOfItsHistory : Prop :=
  ∀ (s0 : State) (is : List Instr) (fam : Family) (src : PhaseSource),
    Inv s0 → s0.count.toNat = 0 →
    GenReady fam src (runHistory is s0 []).1 →
    ∃ (t : State) (x y : Int), exec (genOf fam src) (runHistory is s0 []).1 = .next t ∧
      x = naive fam (runHistory is s0 []).1 (newPhase src (runHistory is s0 []).1) +
        closedCorrection s0.table (eventsOf fam src (runHistory is s0 []).1 :: (runHistory is s0 []).2) ∧
      (x < -32768 → y = -32768) ∧ (-32768 ≤ x → x ≤ 32767 → y = x) ∧ (32767 < x → y = 32767) ∧
      t.pending = (runHistory is s0 []).1.pending ++ [⟨false, BitVec.ofInt 32 y⟩] ∧
      closedCorrection s0.table (eventsOf fam src (runHistory is s0 []).1 :: (runHistory is s0 []).2) =
        owed (runHistory is s0 []).1 0 + tapSum s0.table 0 (eventsOf fam src (runHistory is s0 []).1)

/-- The wrap law: n consecutive GENs with PS = 0 and FREQ = F from PHASE = p0 wrap floor((p0 + n*F) / 2^32)
times, which is floor(n*F / 2^32) or one more, and every wrap crosses the edge at phase 0 (R92). -/
def Obligations.WrapsAreCountedByTheAccumulator : Prop :=
  ∀ (fam : Family) (s : State) (n : Nat), Inv s → s.fault = false → s.mode = familyMode fam →
    (phaseAfter fam n s).toNat = (s.phase.toNat + n * s.freq.toNat) % 2 ^ 32 ∧
    wrapCount fam n s = (s.phase.toNat + n * s.freq.toNat) / 2 ^ 32 ∧
    (wrapCount fam n s = n * s.freq.toNat / 2 ^ 32 ∨ wrapCount fam n s = n * s.freq.toNat / 2 ^ 32 + 1) ∧
    (∀ m < n, (phaseAfter fam (m + 1) s).toNat < (phaseAfter fam m s).toNat →
      ∀ r, crossed (phaseAfter fam (m + 1) s) s.freq ⟨0#32, r⟩ = true)

/-! ### INIT (41_init.md) -/

/-- INIT.SAW, INIT.RSAW and INIT.SQ: refused while faulted; otherwise the state of R120, every element named
and WIDTH, POL, FAULT, CAUSE kept, response (0, 0). -/
def Obligations.InitSeedsTheDatapath : Prop :=
  ∀ (fam : Family) (f : Word) (s : State),
    (s.fault = true → exec (initOf fam f) s = .next (answered true 0#32 s)) ∧
    (s.fault = false → exec (initOf fam f) s = .next { s with
      freq := if 0x7FFFFFFF < f.toNat then 0x7FFFFFFF#32 else f
      clamp := decide (0x7FFFFFFF < f.toNat)
      mode := match fam with
        | .saw => .saw
        | .rsaw => .rsaw
        | .sq => .sq
      phase := 0#32
      cells := Vector.replicate 16 0#32
      slots := Vector.replicate 32 ⟨0#4, false, 0#5⟩
      head := 0#5
      tail := 0#5
      count := 0#6
      wptr := 0#4
      pending := s.pending ++ [⟨false, 0#32⟩] })

/-- INIT twice with one family and word leaves the state of INIT once, element by element, and both respond
(0, 0) (R124). -/
def Obligations.InitIsIdempotent : Prop :=
  ∀ (fam : Family) (f : Word) (s : State), s.fault = false →
    ∃ t, exec (initOf fam f) s = .next t ∧ t.pending = s.pending ++ [⟨false, 0#32⟩] ∧
      exec (initOf fam f) t = .next { t with pending := t.pending ++ [⟨false, 0#32⟩] }

/-! ### GEN (42_generate.md) -/

/-- GEN.SAW, GEN.RSAW and GEN.SQ complete whenever BLOSC is unfaulted, the family is the last INIT's and an
external phase is in range: PHASE and WPTR advance, and the response is y, the value x clipped to
-32768..32767 and never wrapped, where x is the naive value plus everything the live events owe this sample
plus tap 0 of the new ones: one tap per sample per live event, the sum saturated once
(R11, R90, R91, R108, R111, R114, R116, R130). -/
def Obligations.GenAnswersTheTapPerSampleOutput : Prop :=
  ∀ (fam : Family) (src : PhaseSource) (s : State), Inv s → GenReady fam src s →
    ∃ (t : State) (x y : Int), exec (genOf fam src) s = .next t ∧
      t.phase = (match src with
        | .internal => s.phase + s.freq
        | .external ph => ph) ∧
      t.wptr.toNat = (s.wptr.toNat + 1) % 16 ∧
      x = naive fam s t.phase + owed s 0 + tapSum s.table 0 (eventsOf fam src s) ∧
      (x < -32768 → y = -32768) ∧ (-32768 ≤ x → x ≤ 32767 → y = x) ∧ (32767 < x → y = 32767) ∧
      t.pending = s.pending ++ [⟨false, BitVec.ofInt 32 y⟩]

/-- The ring after a GEN: events of AGE 16 are gone, the others one older, the new ones at the end with AGE 1,
and the cursors moved by as many (R105, R107, R110). -/
def Obligations.GenRetiresAgesAndInsertsEvents : Prop :=
  ∀ (fam : Family) (src : PhaseSource) (s : State), Inv s → GenReady fam src s →
    ∃ t, exec (genOf fam src) s = .next t ∧
      liveSlots t =
        (((liveSlots s).filter fun e => decide (e.age.toNat ≠ 16)).map fun e =>
          { e with age := BitVec.ofNat 5 (e.age.toNat + 1) }) ++
        ((eventsOf fam src s).map fun e => ⟨e.frac, e.rising, 1#5⟩) ∧
      t.head.toNat = (s.head.toNat + ((liveSlots s).filter fun e => decide (e.age.toNat = 16)).length) % 32 ∧
      t.tail.toNat = (s.tail.toNat + (eventsOf fam src s).length) % 32

/-- The window after a GEN: each coming sample's cell holds what it held plus its tap of every new event, and
the cell just emitted, now the last of the window, is 0 (R107, R109, R111). -/
def Obligations.GenShiftsAndScattersTheWindow : Prop :=
  ∀ (fam : Family) (src : PhaseSource) (s : State), Inv s → GenReady fam src s →
    ∃ t, exec (genOf fam src) s = .next t ∧
      (∀ j < 15, dueCell t j = dueCell s (j + 1) + tapSum s.table (j + 1) (eventsOf fam src s)) ∧
      dueCell t 15 = 0

/-- What a GEN that produces a sample leaves alone: FREQ, WIDTH, POL, MODE, STATUS, the step table, the inputs,
the pending responses, which stay in front of its own, and every slot outside the new live range, a retired
slot among them (R31, R35, R130). -/
def Obligations.GenLeavesEverythingElse : Prop :=
  ∀ (fam : Family) (src : PhaseSource) (s t : State), exec (genOf fam src) s = .next t → t.fault = false →
    t.freq = s.freq ∧ t.width = s.width ∧ t.pol = s.pol ∧ t.mode = s.mode ∧
    s.fault = false ∧ t.clamp = s.clamp ∧ t.cause = s.cause ∧ t.table = s.table ∧ t.inputs = s.inputs ∧
    (∃ y : Int, -32768 ≤ y ∧ y ≤ 32767 ∧ t.pending = s.pending ++ [⟨false, BitVec.ofInt 32 y⟩]) ∧
    (RingOk s → ∀ i < 32, (∀ j < t.count.toNat, wrap 32 t.head.toNat j ≠ i) → slotAt t.slots i = slotAt s.slots i)

/-- With WIDTH = 0 a GEN.SQ adds no correction of its own: the output is y, the constant level plus what earlier
events owe clipped to -32768..32767, and the window only shifts (R116, R133). -/
def Obligations.ZeroWidthSquareAddsNoCorrection : Prop :=
  ∀ (src : PhaseSource) (s : State), Inv s → GenReady .sq src s → s.width = 0#32 →
    ∃ (t : State) (x y : Int), exec (.genSq src) s = .next t ∧
      x = (if s.pol then 32767 else -32768) + owed s 0 ∧
      (x < -32768 → y = -32768) ∧ (-32768 ≤ x → x ≤ 32767 → y = x) ∧ (32767 < x → y = 32767) ∧
      t.pending = s.pending ++ [⟨false, BitVec.ofInt 32 y⟩] ∧
      (∀ j < 15, dueCell t j = dueCell s (j + 1))

/-- The reverse sawtooth mirrors the sawtooth: an INIT of each with one word starts a mirrored pair, and from a
mirrored pair the same GEN keeps it mirrored and answers y and -1 - y, also where saturation clips (R132). -/
def Obligations.ReverseSawtoothMirrorsTheSawtooth : Prop :=
  (∀ (f : Word) (s : State), s.fault = false →
    MirrorOf (after (.initSaw f) s) (after (.initRsaw f) s)) ∧
  (∀ (src : PhaseSource) (s t : State), Inv s → MirrorOf s t → GenReady .saw src s →
    ∃ (s' t' : State) (y : Int), exec (.genSaw src) s = .next s' ∧ exec (.genRsaw src) t = .next t' ∧
      MirrorOf s' t' ∧ -32768 ≤ y ∧ y ≤ 32767 ∧
      s'.pending = s.pending ++ [⟨false, BitVec.ofInt 32 y⟩] ∧
      t'.pending = t.pending ++ [⟨false, BitVec.ofInt 32 (-1 - y)⟩])

/-! ### Control commands (43_control.md) -/

/-- NOP, the word 0 with any DATA, responds (0, 0) and leaves the state unchanged, faulted or not (R150). -/
def Obligations.NopOnlyResponds : Prop :=
  (∀ data : Word, decode 0x00000000#32 data = .command .nop) ∧
  (∀ s : State, exec .nop s = .next { s with pending := s.pending ++ [⟨false, 0#32⟩] })

/-- SETPH writes PHASE and nothing else, in every MODE; refused while faulted (R151). -/
def Obligations.SetphWritesPhaseOnly : Prop :=
  ∀ (ph : Word) (s : State), decode 0x00000003#32 ph = .command (.setph ph) ∧
    (s.fault = false → exec (.setph ph) s =
      .next { s with phase := ph, pending := s.pending ++ [⟨false, 0#32⟩] }) ∧
    (s.fault = true → exec (.setph ph) s = .next { s with pending := s.pending ++ [⟨true, 0#32⟩] })

/-- CFGSQ writes WIDTH and POL and nothing else, in every MODE; refused while faulted (R152). -/
def Obligations.CfgsqWritesWidthAndPolarityOnly : Prop :=
  ∀ (polb : Bool) (wid : Word) (s : State),
    decode (if polb then 0x00000084#32 else 0x00000004#32) wid = .command (.cfgsq polb wid) ∧
    (s.fault = false → exec (.cfgsq polb wid) s =
      .next { s with width := wid, pol := polb, pending := s.pending ++ [⟨false, 0#32⟩] }) ∧
    (s.fault = true → exec (.cfgsq polb wid) s = .next { s with pending := s.pending ++ [⟨true, 0#32⟩] })

/-- RDREG at every number of the map, faulted or not: it answers the register, fields at their bits and all
other bits 0, and changes nothing; at a reserved number it raises ILLEGAL (R56, R153). -/
def Obligations.RdregReadsTheRegisterMap : Prop :=
  (∀ (reg : BitVec 8) (data : Word),
    decode (0x00000005#32 ||| (reg.setWidth 32 <<< 8)) data = .command (.rdreg reg.toNat)) ∧
  ∀ s : State,
    (∃ v : Word, exec (.rdreg 0x00) s = .next (answered false v s) ∧
      v.toNat = s.fault.toNat + 2 * s.clamp.toNat + 16 * (match s.cause with
        | none => 0
        | some .illegal => 1
        | some .uninit => 2
        | some .mode => 3
        | some .range => 4
        | some .overflow => 5)) ∧
    (∃ v : Word, exec (.rdreg 0x01) s = .next (answered false v s) ∧
      v.toNat = (match s.mode with
        | .none => 0
        | .saw => 1
        | .rsaw => 2
        | .sq => 3)) ∧
    exec (.rdreg 0x02) s = .next (answered false s.phase s) ∧
    exec (.rdreg 0x03) s = .next (answered false s.freq s) ∧
    exec (.rdreg 0x04) s = .next (answered false s.width s) ∧
    (∃ v : Word, exec (.rdreg 0x05) s = .next (answered false v s) ∧ v.toNat = s.pol.toNat) ∧
    (∃ v : Word, exec (.rdreg 0x06) s = .next (answered false v s) ∧
      v.toNat = s.head.toNat + 2 ^ 8 * s.tail.toNat + 2 ^ 16 * s.count.toNat) ∧
    (∃ v : Word, exec (.rdreg 0x07) s = .next (answered false v s) ∧ v.toNat = s.wptr.toNat) ∧
    exec (.rdreg 0x08) s = .next (answered false 0x20102010#32 s) ∧
    (∀ i : Fin 16, exec (.rdreg (0x10 + i.val)) s = .next (answered false s.cells[i] s)) ∧
    (∀ j : Fin 32, ∃ v : Word, exec (.rdreg (0x20 + j.val)) s = .next (answered false v s) ∧
      v.toNat = s.slots[j].frac.toNat + 2 ^ 4 * s.slots[j].rising.toNat + 2 ^ 8 * s.slots[j].age.toNat) ∧
    (∀ reg : Nat, (0x09 ≤ reg ∧ reg ≤ 0x0F) ∨ (0x40 ≤ reg ∧ reg ≤ 0xFF) →
      exec (.rdreg reg) s = .next (if s.fault then answered true 0#32 s else faultedBy .illegal s))

/-- RDREG shows every state element: two states that answer every legal register number alike agree on each
element of R20 (R185). -/
def Obligations.RegisterReadsShowEveryElement : Prop :=
  ∀ s t : State, (∀ reg < 0x40, regValue reg s = regValue reg t) →
    s.phase = t.phase ∧ s.freq = t.freq ∧ s.width = t.width ∧ s.pol = t.pol ∧ s.mode = t.mode ∧
    s.fault = t.fault ∧ s.clamp = t.clamp ∧ s.cause = t.cause ∧ s.cells = t.cells ∧ s.wptr = t.wptr ∧
    s.slots = t.slots ∧ s.head = t.head ∧ s.tail = t.tail ∧ s.count = t.count

/-! ### Faults (60_exceptions.md) -/

/-- Every command word gives one response. With ERR = 1 its data is 0 and the state is unchanged but for FAULT
and CAUSE, which a fault of an unfaulted BLOSC records; with ERR = 0 FAULT and CAUSE are unchanged
(R176). -/
def Obligations.FaultsArePrecise : Prop :=
  ∀ (cmd data : Word) (s : State), ∃ (t : State) (r : Response),
    runCommand cmd data s = .next t ∧ t.pending = s.pending ++ [r] ∧
    (r.err = true → r.data = 0#32 ∧
      ((s.fault = true ∧ t = { s with pending := s.pending ++ [r] }) ∨
       (s.fault = false ∧ ∃ c, t = { s with fault := true, cause := some c, pending := s.pending ++ [r] }))) ∧
    (r.err = false → t.fault = s.fault ∧ t.cause = s.cause)

/-- The table of the faulted state, row by row; no command leaves it (R173). -/
def Obligations.FaultedStateRunsOnlyNopAndReads : Prop :=
  ∀ s : State, s.fault = true →
    exec .nop s = .next (answered false 0#32 s) ∧
    (∀ reg : Nat, reg ≤ 0x08 ∨ (0x10 ≤ reg ∧ reg ≤ 0x3F) →
      ∃ v, regValue reg s = some v ∧ exec (.rdreg reg) s = .next (answered false v s)) ∧
    (∀ reg : Nat, (0x09 ≤ reg ∧ reg ≤ 0x0F) ∨ (0x40 ≤ reg ∧ reg ≤ 0xFF) →
      exec (.rdreg reg) s = .next (answered true 0#32 s)) ∧
    (∀ cmd data, decode cmd data = .illegal → runCommand cmd data s = .next (answered true 0#32 s)) ∧
    (∀ fam f, exec (initOf fam f) s = .next (answered true 0#32 s)) ∧
    (∀ fam src, exec (genOf fam src) s = .next (answered true 0#32 s)) ∧
    (∀ ph, exec (.setph ph) s = .next (answered true 0#32 s)) ∧
    (∀ polb wid, exec (.cfgsq polb wid) s = .next (answered true 0#32 s)) ∧
    (∀ i t, exec i s = .next t → t.fault = true)

/-- The order of the causes: ILLEGAL, the refusal, UNINIT, MODE, RANGE, OVERFLOW; each is taken whatever of the
later ones also applies (R174). -/
def Obligations.FirstCauseInOrderIsTaken : Prop :=
  ∀ s : State,
    (∀ cmd data, decode cmd data = .illegal →
      runCommand cmd data s = .next (if s.fault then answered true 0#32 s else faultedBy .illegal s)) ∧
    (∀ reg : Nat, (0x09 ≤ reg ∧ reg ≤ 0x0F) ∨ (0x40 ≤ reg ∧ reg ≤ 0xFF) →
      exec (.rdreg reg) s = .next (if s.fault then answered true 0#32 s else faultedBy .illegal s)) ∧
    (s.fault = true → ∀ i : Instr, i ≠ .nop → (∀ reg, i ≠ .rdreg reg) →
      exec i s = .next (answered true 0#32 s)) ∧
    (s.fault = false → ∀ (fam : Family) (src : PhaseSource),
      (s.mode = .none → exec (genOf fam src) s = .next (faultedBy .uninit s)) ∧
      (s.mode ≠ .none → s.mode ≠ familyMode fam → exec (genOf fam src) s = .next (faultedBy .mode s)) ∧
      (s.mode = familyMode fam → ∀ ph, src = .external ph → 0x7FFFFFFF < (ph - s.phase).toNat →
        exec (genOf fam src) s = .next (faultedBy .range s)) ∧
      (GenReady fam src s → 32 < (retire s).count.toNat + (eventsOf fam src s).length →
        exec (genOf fam src) s = .next (faultedBy .overflow s)))

/-- Only reset leaves the faulted state, and until then the first cause stays (R172, R173, R177). -/
def Obligations.OnlyResetClearsAFault : Prop :=
  ∀ s t : State, step s = .next t → s.fault = true →
    (t.fault = true ∧ t.cause = s.cause) ∨ ∃ e rest, s.inputs = e :: rest ∧ e.rst = true

/-! ### The whole machine (10_state.md) -/

/-- Which commands write which state: an element that changed was written by a command that R35 lists for it,
and no command changes the step table or the inputs. -/
def Obligations.OnlyListedCommandsWriteAnElement : Prop :=
  ∀ (i : Instr) (s t : State), exec i s = .next t →
    (t.freq ≠ s.freq ∨ t.mode ≠ s.mode ∨ t.clamp ≠ s.clamp → ∃ fam f, i = initOf fam f) ∧
    (t.width ≠ s.width ∨ t.pol ≠ s.pol → ∃ polb wid, i = .cfgsq polb wid) ∧
    (t.phase ≠ s.phase →
      (∃ fam f, i = initOf fam f) ∨ (∃ fam src, i = genOf fam src) ∨ ∃ ph, i = .setph ph) ∧
    (t.cells ≠ s.cells ∨ t.wptr ≠ s.wptr ∨ t.slots ≠ s.slots ∨ t.head ≠ s.head ∨ t.tail ≠ s.tail ∨
        t.count ≠ s.count →
      (∃ fam f, i = initOf fam f) ∨ ∃ fam src, i = genOf fam src) ∧
    (t.fault ≠ s.fault ∨ t.cause ≠ s.cause →
      (∃ fam src, i = genOf fam src) ∨ ∃ reg, i = .rdreg reg) ∧
    t.table = s.table ∧ t.inputs = s.inputs

/-- No step, reset among them, changes the step table (R34, R63, R93). -/
def Obligations.StepTableIsReadOnly : Prop := ∀ s t : State, step s = .next t → t.table = s.table

/-- No command but a read of a slot register can tell what a slot outside the live range holds: two states of
the invariant alike but for such slots give the same response and stay alike (R31, R33). -/
def Obligations.StaleSlotsAreSeenOnlyByRdreg : Prop :=
  ∀ (i : Instr) (s t : State), Inv s → AgreeOnLive s t →
    (∀ reg, i = .rdreg reg → reg < 0x20 ∨ 0x40 ≤ reg) →
    ∃ s' t', exec i s = .next s' ∧ exec i t = .next t' ∧ AgreeOnLive s' t'

/-- The invariant holds at reset, whatever the step table (R20, R36, R37, R190). -/
def Obligations.InvHoldsAtReset : Prop := ∀ tbl : StepTable, Inv { State.reset with table := tbl }

/-- Every step keeps the invariant of R36 and R37: the ring's occupancy and cursors, the order and range of the
ages, at most two events of one sample, the clamp of FREQ, MODE and STATUS, and every cell the exact sum of
what the live events owe its sample. -/
def Obligations.StepKeepsInv : Prop := ∀ s t : State, Inv s → step s = .next t → Inv t
end

