-- ==== Sys2Proof/Laws/State.lean ====
section
/-! SUPPORT. One lemma per field per update of the state: what each named update writes and what it leaves. -/

namespace Sys2Proof.Machine

/-! ### respond -/

@[simp] theorem respond_phase (err : Bool) (data : Word) (s : State) : (respond err data s).phase = s.phase := rfl
@[simp] theorem respond_freq (err : Bool) (data : Word) (s : State) : (respond err data s).freq = s.freq := rfl
@[simp] theorem respond_width (err : Bool) (data : Word) (s : State) : (respond err data s).width = s.width := rfl
@[simp] theorem respond_pol (err : Bool) (data : Word) (s : State) : (respond err data s).pol = s.pol := rfl
@[simp] theorem respond_mode (err : Bool) (data : Word) (s : State) : (respond err data s).mode = s.mode := rfl
@[simp] theorem respond_fault (err : Bool) (data : Word) (s : State) : (respond err data s).fault = s.fault := rfl
@[simp] theorem respond_clamp (err : Bool) (data : Word) (s : State) : (respond err data s).clamp = s.clamp := rfl
@[simp] theorem respond_cause (err : Bool) (data : Word) (s : State) : (respond err data s).cause = s.cause := rfl
@[simp] theorem respond_cells (err : Bool) (data : Word) (s : State) : (respond err data s).cells = s.cells := rfl
@[simp] theorem respond_wptr (err : Bool) (data : Word) (s : State) : (respond err data s).wptr = s.wptr := rfl
@[simp] theorem respond_slots (err : Bool) (data : Word) (s : State) : (respond err data s).slots = s.slots := rfl
@[simp] theorem respond_head (err : Bool) (data : Word) (s : State) : (respond err data s).head = s.head := rfl
@[simp] theorem respond_tail (err : Bool) (data : Word) (s : State) : (respond err data s).tail = s.tail := rfl
@[simp] theorem respond_count (err : Bool) (data : Word) (s : State) : (respond err data s).count = s.count := rfl
@[simp] theorem respond_table (err : Bool) (data : Word) (s : State) : (respond err data s).table = s.table := rfl
@[simp] theorem respond_inputs (err : Bool) (data : Word) (s : State) : (respond err data s).inputs = s.inputs := rfl
@[simp] theorem respond_pending (err : Bool) (data : Word) (s : State) : (respond err data s).pending = s.pending ++ [⟨err, data⟩] := rfl

/-! ### answered -/

@[simp] theorem answered_phase (err : Bool) (data : Word) (s : State) : (answered err data s).phase = s.phase := rfl
@[simp] theorem answered_freq (err : Bool) (data : Word) (s : State) : (answered err data s).freq = s.freq := rfl
@[simp] theorem answered_width (err : Bool) (data : Word) (s : State) : (answered err data s).width = s.width := rfl
@[simp] theorem answered_pol (err : Bool) (data : Word) (s : State) : (answered err data s).pol = s.pol := rfl
@[simp] theorem answered_mode (err : Bool) (data : Word) (s : State) : (answered err data s).mode = s.mode := rfl
@[simp] theorem answered_fault (err : Bool) (data : Word) (s : State) : (answered err data s).fault = s.fault := rfl
@[simp] theorem answered_clamp (err : Bool) (data : Word) (s : State) : (answered err data s).clamp = s.clamp := rfl
@[simp] theorem answered_cause (err : Bool) (data : Word) (s : State) : (answered err data s).cause = s.cause := rfl
@[simp] theorem answered_cells (err : Bool) (data : Word) (s : State) : (answered err data s).cells = s.cells := rfl
@[simp] theorem answered_wptr (err : Bool) (data : Word) (s : State) : (answered err data s).wptr = s.wptr := rfl
@[simp] theorem answered_slots (err : Bool) (data : Word) (s : State) : (answered err data s).slots = s.slots := rfl
@[simp] theorem answered_head (err : Bool) (data : Word) (s : State) : (answered err data s).head = s.head := rfl
@[simp] theorem answered_tail (err : Bool) (data : Word) (s : State) : (answered err data s).tail = s.tail := rfl
@[simp] theorem answered_count (err : Bool) (data : Word) (s : State) : (answered err data s).count = s.count := rfl
@[simp] theorem answered_table (err : Bool) (data : Word) (s : State) : (answered err data s).table = s.table := rfl
@[simp] theorem answered_inputs (err : Bool) (data : Word) (s : State) : (answered err data s).inputs = s.inputs := rfl
@[simp] theorem answered_pending (err : Bool) (data : Word) (s : State) : (answered err data s).pending = s.pending ++ [⟨err, data⟩] := rfl

/-! ### faultedBy -/

@[simp] theorem faultedBy_phase (c : Cause) (s : State) : (faultedBy c s).phase = s.phase := rfl
@[simp] theorem faultedBy_freq (c : Cause) (s : State) : (faultedBy c s).freq = s.freq := rfl
@[simp] theorem faultedBy_width (c : Cause) (s : State) : (faultedBy c s).width = s.width := rfl
@[simp] theorem faultedBy_pol (c : Cause) (s : State) : (faultedBy c s).pol = s.pol := rfl
@[simp] theorem faultedBy_mode (c : Cause) (s : State) : (faultedBy c s).mode = s.mode := rfl
@[simp] theorem faultedBy_fault (c : Cause) (s : State) : (faultedBy c s).fault = true := rfl
@[simp] theorem faultedBy_clamp (c : Cause) (s : State) : (faultedBy c s).clamp = s.clamp := rfl
@[simp] theorem faultedBy_cause (c : Cause) (s : State) : (faultedBy c s).cause = some c := rfl
@[simp] theorem faultedBy_cells (c : Cause) (s : State) : (faultedBy c s).cells = s.cells := rfl
@[simp] theorem faultedBy_wptr (c : Cause) (s : State) : (faultedBy c s).wptr = s.wptr := rfl
@[simp] theorem faultedBy_slots (c : Cause) (s : State) : (faultedBy c s).slots = s.slots := rfl
@[simp] theorem faultedBy_head (c : Cause) (s : State) : (faultedBy c s).head = s.head := rfl
@[simp] theorem faultedBy_tail (c : Cause) (s : State) : (faultedBy c s).tail = s.tail := rfl
@[simp] theorem faultedBy_count (c : Cause) (s : State) : (faultedBy c s).count = s.count := rfl
@[simp] theorem faultedBy_table (c : Cause) (s : State) : (faultedBy c s).table = s.table := rfl
@[simp] theorem faultedBy_inputs (c : Cause) (s : State) : (faultedBy c s).inputs = s.inputs := rfl
@[simp] theorem faultedBy_pending (c : Cause) (s : State) : (faultedBy c s).pending = s.pending ++ [⟨true, 0#32⟩] := rfl

/-! ### refuse -/

@[simp] theorem refuse_phase (s : State) : (refuse s).phase = s.phase := rfl
@[simp] theorem refuse_freq (s : State) : (refuse s).freq = s.freq := rfl
@[simp] theorem refuse_width (s : State) : (refuse s).width = s.width := rfl
@[simp] theorem refuse_pol (s : State) : (refuse s).pol = s.pol := rfl
@[simp] theorem refuse_mode (s : State) : (refuse s).mode = s.mode := rfl
@[simp] theorem refuse_fault (s : State) : (refuse s).fault = s.fault := rfl
@[simp] theorem refuse_clamp (s : State) : (refuse s).clamp = s.clamp := rfl
@[simp] theorem refuse_cause (s : State) : (refuse s).cause = s.cause := rfl
@[simp] theorem refuse_cells (s : State) : (refuse s).cells = s.cells := rfl
@[simp] theorem refuse_wptr (s : State) : (refuse s).wptr = s.wptr := rfl
@[simp] theorem refuse_slots (s : State) : (refuse s).slots = s.slots := rfl
@[simp] theorem refuse_head (s : State) : (refuse s).head = s.head := rfl
@[simp] theorem refuse_tail (s : State) : (refuse s).tail = s.tail := rfl
@[simp] theorem refuse_count (s : State) : (refuse s).count = s.count := rfl
@[simp] theorem refuse_table (s : State) : (refuse s).table = s.table := rfl
@[simp] theorem refuse_inputs (s : State) : (refuse s).inputs = s.inputs := rfl
@[simp] theorem refuse_pending (s : State) : (refuse s).pending = s.pending ++ [⟨true, 0#32⟩] := rfl

/-! ### recordFault -/

@[simp] theorem recordFault_phase (c : Cause) (s : State) : (recordFault c s).phase = s.phase := by
  unfold recordFault; split <;> rfl
@[simp] theorem recordFault_freq (c : Cause) (s : State) : (recordFault c s).freq = s.freq := by
  unfold recordFault; split <;> rfl
@[simp] theorem recordFault_width (c : Cause) (s : State) : (recordFault c s).width = s.width := by
  unfold recordFault; split <;> rfl
@[simp] theorem recordFault_pol (c : Cause) (s : State) : (recordFault c s).pol = s.pol := by
  unfold recordFault; split <;> rfl
@[simp] theorem recordFault_mode (c : Cause) (s : State) : (recordFault c s).mode = s.mode := by
  unfold recordFault; split <;> rfl
@[simp] theorem recordFault_fault (c : Cause) (s : State) : (recordFault c s).fault = true := by
  unfold recordFault; split <;> simp_all
@[simp] theorem recordFault_clamp (c : Cause) (s : State) : (recordFault c s).clamp = s.clamp := by
  unfold recordFault; split <;> rfl
@[simp] theorem recordFault_cause (c : Cause) (s : State) : (recordFault c s).cause = if s.fault then s.cause else some c := by
  unfold recordFault; split <;> simp_all
@[simp] theorem recordFault_cells (c : Cause) (s : State) : (recordFault c s).cells = s.cells := by
  unfold recordFault; split <;> rfl
@[simp] theorem recordFault_wptr (c : Cause) (s : State) : (recordFault c s).wptr = s.wptr := by
  unfold recordFault; split <;> rfl
@[simp] theorem recordFault_slots (c : Cause) (s : State) : (recordFault c s).slots = s.slots := by
  unfold recordFault; split <;> rfl
@[simp] theorem recordFault_head (c : Cause) (s : State) : (recordFault c s).head = s.head := by
  unfold recordFault; split <;> rfl
@[simp] theorem recordFault_tail (c : Cause) (s : State) : (recordFault c s).tail = s.tail := by
  unfold recordFault; split <;> rfl
@[simp] theorem recordFault_count (c : Cause) (s : State) : (recordFault c s).count = s.count := by
  unfold recordFault; split <;> rfl
@[simp] theorem recordFault_table (c : Cause) (s : State) : (recordFault c s).table = s.table := by
  unfold recordFault; split <;> rfl
@[simp] theorem recordFault_inputs (c : Cause) (s : State) : (recordFault c s).inputs = s.inputs := by
  unfold recordFault; split <;> rfl
@[simp] theorem recordFault_pending (c : Cause) (s : State) : (recordFault c s).pending = s.pending := by
  unfold recordFault; split <;> rfl

/-! ### raiseFault -/

@[simp] theorem raiseFault_phase (c : Cause) (s : State) : (raiseFault c s).phase = s.phase := by
  simp [raiseFault]
@[simp] theorem raiseFault_freq (c : Cause) (s : State) : (raiseFault c s).freq = s.freq := by
  simp [raiseFault]
@[simp] theorem raiseFault_width (c : Cause) (s : State) : (raiseFault c s).width = s.width := by
  simp [raiseFault]
@[simp] theorem raiseFault_pol (c : Cause) (s : State) : (raiseFault c s).pol = s.pol := by
  simp [raiseFault]
@[simp] theorem raiseFault_mode (c : Cause) (s : State) : (raiseFault c s).mode = s.mode := by
  simp [raiseFault]
@[simp] theorem raiseFault_fault (c : Cause) (s : State) : (raiseFault c s).fault = true := by
  simp [raiseFault]
@[simp] theorem raiseFault_clamp (c : Cause) (s : State) : (raiseFault c s).clamp = s.clamp := by
  simp [raiseFault]
@[simp] theorem raiseFault_cause (c : Cause) (s : State) : (raiseFault c s).cause = if s.fault then s.cause else some c := by
  simp [raiseFault]
@[simp] theorem raiseFault_cells (c : Cause) (s : State) : (raiseFault c s).cells = s.cells := by
  simp [raiseFault]
@[simp] theorem raiseFault_wptr (c : Cause) (s : State) : (raiseFault c s).wptr = s.wptr := by
  simp [raiseFault]
@[simp] theorem raiseFault_slots (c : Cause) (s : State) : (raiseFault c s).slots = s.slots := by
  simp [raiseFault]
@[simp] theorem raiseFault_head (c : Cause) (s : State) : (raiseFault c s).head = s.head := by
  simp [raiseFault]
@[simp] theorem raiseFault_tail (c : Cause) (s : State) : (raiseFault c s).tail = s.tail := by
  simp [raiseFault]
@[simp] theorem raiseFault_count (c : Cause) (s : State) : (raiseFault c s).count = s.count := by
  simp [raiseFault]
@[simp] theorem raiseFault_table (c : Cause) (s : State) : (raiseFault c s).table = s.table := by
  simp [raiseFault]
@[simp] theorem raiseFault_inputs (c : Cause) (s : State) : (raiseFault c s).inputs = s.inputs := by
  simp [raiseFault]
@[simp] theorem raiseFault_pending (c : Cause) (s : State) : (raiseFault c s).pending = s.pending ++ [⟨true, 0#32⟩] := by
  simp [raiseFault]

/-! ### retireOne -/

@[simp] theorem retireOne_phase (s : State) : (retireOne s).phase = s.phase := rfl
@[simp] theorem retireOne_freq (s : State) : (retireOne s).freq = s.freq := rfl
@[simp] theorem retireOne_width (s : State) : (retireOne s).width = s.width := rfl
@[simp] theorem retireOne_pol (s : State) : (retireOne s).pol = s.pol := rfl
@[simp] theorem retireOne_mode (s : State) : (retireOne s).mode = s.mode := rfl
@[simp] theorem retireOne_fault (s : State) : (retireOne s).fault = s.fault := rfl
@[simp] theorem retireOne_clamp (s : State) : (retireOne s).clamp = s.clamp := rfl
@[simp] theorem retireOne_cause (s : State) : (retireOne s).cause = s.cause := rfl
@[simp] theorem retireOne_cells (s : State) : (retireOne s).cells = s.cells := rfl
@[simp] theorem retireOne_wptr (s : State) : (retireOne s).wptr = s.wptr := rfl
@[simp] theorem retireOne_slots (s : State) : (retireOne s).slots = s.slots := rfl
@[simp] theorem retireOne_head (s : State) : (retireOne s).head = BitVec.ofNat 5 (wrap 32 s.head.toNat 1) := rfl
@[simp] theorem retireOne_tail (s : State) : (retireOne s).tail = s.tail := rfl
@[simp] theorem retireOne_count (s : State) : (retireOne s).count = BitVec.ofNat 6 (s.count.toNat - 1) := rfl
@[simp] theorem retireOne_table (s : State) : (retireOne s).table = s.table := rfl
@[simp] theorem retireOne_inputs (s : State) : (retireOne s).inputs = s.inputs := rfl
@[simp] theorem retireOne_pending (s : State) : (retireOne s).pending = s.pending := rfl

/-! ### insertEvent -/

@[simp] theorem insertEvent_phase (s : State) (e : StepEvent) : (insertEvent s e).phase = s.phase := by
  simp only [insertEvent]
@[simp] theorem insertEvent_freq (s : State) (e : StepEvent) : (insertEvent s e).freq = s.freq := by
  simp only [insertEvent]
@[simp] theorem insertEvent_width (s : State) (e : StepEvent) : (insertEvent s e).width = s.width := by
  simp only [insertEvent]
@[simp] theorem insertEvent_pol (s : State) (e : StepEvent) : (insertEvent s e).pol = s.pol := by
  simp only [insertEvent]
@[simp] theorem insertEvent_mode (s : State) (e : StepEvent) : (insertEvent s e).mode = s.mode := by
  simp only [insertEvent]
@[simp] theorem insertEvent_fault (s : State) (e : StepEvent) : (insertEvent s e).fault = s.fault := by
  simp only [insertEvent]
@[simp] theorem insertEvent_clamp (s : State) (e : StepEvent) : (insertEvent s e).clamp = s.clamp := by
  simp only [insertEvent]
@[simp] theorem insertEvent_cause (s : State) (e : StepEvent) : (insertEvent s e).cause = s.cause := by
  simp only [insertEvent]
@[simp] theorem insertEvent_cells (s : State) (e : StepEvent) : (insertEvent s e).cells = scatter s.table s.wptr.toNat e s.cells := by
  simp only [insertEvent]
@[simp] theorem insertEvent_wptr (s : State) (e : StepEvent) : (insertEvent s e).wptr = s.wptr := by
  simp only [insertEvent]
@[simp] theorem insertEvent_slots (s : State) (e : StepEvent) : (insertEvent s e).slots = setSlot s.slots s.tail.toNat ⟨e.frac, e.rising, 0#5⟩ := by
  simp only [insertEvent]
@[simp] theorem insertEvent_head (s : State) (e : StepEvent) : (insertEvent s e).head = s.head := by
  simp only [insertEvent]
@[simp] theorem insertEvent_tail (s : State) (e : StepEvent) : (insertEvent s e).tail = BitVec.ofNat 5 (wrap 32 s.tail.toNat 1) := by
  simp only [insertEvent]
@[simp] theorem insertEvent_count (s : State) (e : StepEvent) : (insertEvent s e).count = BitVec.ofNat 6 (s.count.toNat + 1) := by
  simp only [insertEvent]
@[simp] theorem insertEvent_table (s : State) (e : StepEvent) : (insertEvent s e).table = s.table := by
  simp only [insertEvent]
@[simp] theorem insertEvent_inputs (s : State) (e : StepEvent) : (insertEvent s e).inputs = s.inputs := by
  simp only [insertEvent]
@[simp] theorem insertEvent_pending (s : State) (e : StepEvent) : (insertEvent s e).pending = s.pending := by
  simp only [insertEvent]

/-! ### clearCell -/

@[simp] theorem clearCell_phase (s : State) : (clearCell s).phase = s.phase := rfl
@[simp] theorem clearCell_freq (s : State) : (clearCell s).freq = s.freq := rfl
@[simp] theorem clearCell_width (s : State) : (clearCell s).width = s.width := rfl
@[simp] theorem clearCell_pol (s : State) : (clearCell s).pol = s.pol := rfl
@[simp] theorem clearCell_mode (s : State) : (clearCell s).mode = s.mode := rfl
@[simp] theorem clearCell_fault (s : State) : (clearCell s).fault = s.fault := rfl
@[simp] theorem clearCell_clamp (s : State) : (clearCell s).clamp = s.clamp := rfl
@[simp] theorem clearCell_cause (s : State) : (clearCell s).cause = s.cause := rfl
@[simp] theorem clearCell_cells (s : State) : (clearCell s).cells = setCell s.cells s.wptr.toNat 0#32 := rfl
@[simp] theorem clearCell_wptr (s : State) : (clearCell s).wptr = s.wptr := rfl
@[simp] theorem clearCell_slots (s : State) : (clearCell s).slots = s.slots := rfl
@[simp] theorem clearCell_head (s : State) : (clearCell s).head = s.head := rfl
@[simp] theorem clearCell_tail (s : State) : (clearCell s).tail = s.tail := rfl
@[simp] theorem clearCell_count (s : State) : (clearCell s).count = s.count := rfl
@[simp] theorem clearCell_table (s : State) : (clearCell s).table = s.table := rfl
@[simp] theorem clearCell_inputs (s : State) : (clearCell s).inputs = s.inputs := rfl
@[simp] theorem clearCell_pending (s : State) : (clearCell s).pending = s.pending := rfl

/-! ### ageAll -/

@[simp] theorem ageAll_phase (s : State) : (ageAll s).phase = s.phase := rfl
@[simp] theorem ageAll_freq (s : State) : (ageAll s).freq = s.freq := rfl
@[simp] theorem ageAll_width (s : State) : (ageAll s).width = s.width := rfl
@[simp] theorem ageAll_pol (s : State) : (ageAll s).pol = s.pol := rfl
@[simp] theorem ageAll_mode (s : State) : (ageAll s).mode = s.mode := rfl
@[simp] theorem ageAll_fault (s : State) : (ageAll s).fault = s.fault := rfl
@[simp] theorem ageAll_clamp (s : State) : (ageAll s).clamp = s.clamp := rfl
@[simp] theorem ageAll_cause (s : State) : (ageAll s).cause = s.cause := rfl
@[simp] theorem ageAll_cells (s : State) : (ageAll s).cells = s.cells := rfl
@[simp] theorem ageAll_wptr (s : State) : (ageAll s).wptr = s.wptr := rfl
@[simp] theorem ageAll_slots (s : State) : (ageAll s).slots = (List.range s.count.toNat).foldl (ageSlot s.head.toNat) s.slots := rfl
@[simp] theorem ageAll_head (s : State) : (ageAll s).head = s.head := rfl
@[simp] theorem ageAll_tail (s : State) : (ageAll s).tail = s.tail := rfl
@[simp] theorem ageAll_count (s : State) : (ageAll s).count = s.count := rfl
@[simp] theorem ageAll_table (s : State) : (ageAll s).table = s.table := rfl
@[simp] theorem ageAll_inputs (s : State) : (ageAll s).inputs = s.inputs := rfl
@[simp] theorem ageAll_pending (s : State) : (ageAll s).pending = s.pending := rfl

/-! ### advanceWindow -/

@[simp] theorem advanceWindow_phase (p1 : Word) (s : State) : (advanceWindow p1 s).phase = p1 := rfl
@[simp] theorem advanceWindow_freq (p1 : Word) (s : State) : (advanceWindow p1 s).freq = s.freq := rfl
@[simp] theorem advanceWindow_width (p1 : Word) (s : State) : (advanceWindow p1 s).width = s.width := rfl
@[simp] theorem advanceWindow_pol (p1 : Word) (s : State) : (advanceWindow p1 s).pol = s.pol := rfl
@[simp] theorem advanceWindow_mode (p1 : Word) (s : State) : (advanceWindow p1 s).mode = s.mode := rfl
@[simp] theorem advanceWindow_fault (p1 : Word) (s : State) : (advanceWindow p1 s).fault = s.fault := rfl
@[simp] theorem advanceWindow_clamp (p1 : Word) (s : State) : (advanceWindow p1 s).clamp = s.clamp := rfl
@[simp] theorem advanceWindow_cause (p1 : Word) (s : State) : (advanceWindow p1 s).cause = s.cause := rfl
@[simp] theorem advanceWindow_cells (p1 : Word) (s : State) : (advanceWindow p1 s).cells = s.cells := rfl
@[simp] theorem advanceWindow_wptr (p1 : Word) (s : State) : (advanceWindow p1 s).wptr = BitVec.ofNat 4 (wrap 16 s.wptr.toNat 1) := rfl
@[simp] theorem advanceWindow_slots (p1 : Word) (s : State) : (advanceWindow p1 s).slots = s.slots := rfl
@[simp] theorem advanceWindow_head (p1 : Word) (s : State) : (advanceWindow p1 s).head = s.head := rfl
@[simp] theorem advanceWindow_tail (p1 : Word) (s : State) : (advanceWindow p1 s).tail = s.tail := rfl
@[simp] theorem advanceWindow_count (p1 : Word) (s : State) : (advanceWindow p1 s).count = s.count := rfl
@[simp] theorem advanceWindow_table (p1 : Word) (s : State) : (advanceWindow p1 s).table = s.table := rfl
@[simp] theorem advanceWindow_inputs (p1 : Word) (s : State) : (advanceWindow p1 s).inputs = s.inputs := rfl
@[simp] theorem advanceWindow_pending (p1 : Word) (s : State) : (advanceWindow p1 s).pending = s.pending := rfl

/-! ### initDatapath -/

@[simp] theorem initDatapath_phase (fam : Family) (f : Word) (s : State) : (initDatapath fam f s).phase = 0#32 := rfl
@[simp] theorem initDatapath_freq (fam : Family) (f : Word) (s : State) : (initDatapath fam f s).freq = clampFreq f := rfl
@[simp] theorem initDatapath_width (fam : Family) (f : Word) (s : State) : (initDatapath fam f s).width = s.width := rfl
@[simp] theorem initDatapath_pol (fam : Family) (f : Word) (s : State) : (initDatapath fam f s).pol = s.pol := rfl
@[simp] theorem initDatapath_mode (fam : Family) (f : Word) (s : State) : (initDatapath fam f s).mode = familyMode fam := rfl
@[simp] theorem initDatapath_fault (fam : Family) (f : Word) (s : State) : (initDatapath fam f s).fault = s.fault := rfl
@[simp] theorem initDatapath_clamp (fam : Family) (f : Word) (s : State) : (initDatapath fam f s).clamp = clampFlag f := rfl
@[simp] theorem initDatapath_cause (fam : Family) (f : Word) (s : State) : (initDatapath fam f s).cause = s.cause := rfl
@[simp] theorem initDatapath_cells (fam : Family) (f : Word) (s : State) : (initDatapath fam f s).cells = Vector.replicate 16 0#32 := rfl
@[simp] theorem initDatapath_wptr (fam : Family) (f : Word) (s : State) : (initDatapath fam f s).wptr = 0#4 := rfl
@[simp] theorem initDatapath_slots (fam : Family) (f : Word) (s : State) : (initDatapath fam f s).slots = Vector.replicate 32 Slot.zero := rfl
@[simp] theorem initDatapath_head (fam : Family) (f : Word) (s : State) : (initDatapath fam f s).head = 0#5 := rfl
@[simp] theorem initDatapath_tail (fam : Family) (f : Word) (s : State) : (initDatapath fam f s).tail = 0#5 := rfl
@[simp] theorem initDatapath_count (fam : Family) (f : Word) (s : State) : (initDatapath fam f s).count = 0#6 := rfl
@[simp] theorem initDatapath_table (fam : Family) (f : Word) (s : State) : (initDatapath fam f s).table = s.table := rfl
@[simp] theorem initDatapath_inputs (fam : Family) (f : Word) (s : State) : (initDatapath fam f s).inputs = s.inputs := rfl
@[simp] theorem initDatapath_pending (fam : Family) (f : Word) (s : State) : (initDatapath fam f s).pending = s.pending := rfl

/-! ### deliver -/

@[simp] theorem deliver_phase (e : PortEdge) (s : State) : (deliver e s).phase = s.phase := by
  unfold deliver; split <;> rfl
@[simp] theorem deliver_freq (e : PortEdge) (s : State) : (deliver e s).freq = s.freq := by
  unfold deliver; split <;> rfl
@[simp] theorem deliver_width (e : PortEdge) (s : State) : (deliver e s).width = s.width := by
  unfold deliver; split <;> rfl
@[simp] theorem deliver_pol (e : PortEdge) (s : State) : (deliver e s).pol = s.pol := by
  unfold deliver; split <;> rfl
@[simp] theorem deliver_mode (e : PortEdge) (s : State) : (deliver e s).mode = s.mode := by
  unfold deliver; split <;> rfl
@[simp] theorem deliver_fault (e : PortEdge) (s : State) : (deliver e s).fault = s.fault := by
  unfold deliver; split <;> rfl
@[simp] theorem deliver_clamp (e : PortEdge) (s : State) : (deliver e s).clamp = s.clamp := by
  unfold deliver; split <;> rfl
@[simp] theorem deliver_cause (e : PortEdge) (s : State) : (deliver e s).cause = s.cause := by
  unfold deliver; split <;> rfl
@[simp] theorem deliver_cells (e : PortEdge) (s : State) : (deliver e s).cells = s.cells := by
  unfold deliver; split <;> rfl
@[simp] theorem deliver_wptr (e : PortEdge) (s : State) : (deliver e s).wptr = s.wptr := by
  unfold deliver; split <;> rfl
@[simp] theorem deliver_slots (e : PortEdge) (s : State) : (deliver e s).slots = s.slots := by
  unfold deliver; split <;> rfl
@[simp] theorem deliver_head (e : PortEdge) (s : State) : (deliver e s).head = s.head := by
  unfold deliver; split <;> rfl
@[simp] theorem deliver_tail (e : PortEdge) (s : State) : (deliver e s).tail = s.tail := by
  unfold deliver; split <;> rfl
@[simp] theorem deliver_count (e : PortEdge) (s : State) : (deliver e s).count = s.count := by
  unfold deliver; split <;> rfl
@[simp] theorem deliver_table (e : PortEdge) (s : State) : (deliver e s).table = s.table := by
  unfold deliver; split <;> rfl
@[simp] theorem deliver_inputs (e : PortEdge) (s : State) : (deliver e s).inputs = s.inputs := by
  unfold deliver; split <;> rfl
@[simp] theorem deliver_pending (e : PortEdge) (s : State) : (deliver e s).pending = if e.takes then s.pending.tail else s.pending := by
  unfold deliver; split <;> simp_all

/-! ### applyReset -/

@[simp] theorem applyReset_phase (s : State) : (s.applyReset).phase = 0#32 := rfl
@[simp] theorem applyReset_freq (s : State) : (s.applyReset).freq = 0#32 := rfl
@[simp] theorem applyReset_width (s : State) : (s.applyReset).width = 0x80000000#32 := rfl
@[simp] theorem applyReset_pol (s : State) : (s.applyReset).pol = false := rfl
@[simp] theorem applyReset_mode (s : State) : (s.applyReset).mode = .none := rfl
@[simp] theorem applyReset_fault (s : State) : (s.applyReset).fault = false := rfl
@[simp] theorem applyReset_clamp (s : State) : (s.applyReset).clamp = false := rfl
@[simp] theorem applyReset_cause (s : State) : (s.applyReset).cause = none := rfl
@[simp] theorem applyReset_cells (s : State) : (s.applyReset).cells = Vector.replicate 16 0#32 := rfl
@[simp] theorem applyReset_wptr (s : State) : (s.applyReset).wptr = 0#4 := rfl
@[simp] theorem applyReset_slots (s : State) : (s.applyReset).slots = Vector.replicate 32 Slot.zero := rfl
@[simp] theorem applyReset_head (s : State) : (s.applyReset).head = 0#5 := rfl
@[simp] theorem applyReset_tail (s : State) : (s.applyReset).tail = 0#5 := rfl
@[simp] theorem applyReset_count (s : State) : (s.applyReset).count = 0#6 := rfl
@[simp] theorem applyReset_table (s : State) : (s.applyReset).table = s.table := rfl
@[simp] theorem applyReset_inputs (s : State) : (s.applyReset).inputs = s.inputs := rfl
@[simp] theorem applyReset_pending (s : State) : (s.applyReset).pending = [] := rfl

end Sys2Proof.Machine
end

