-- ==== Sys2Proof/Laws/Ops.lean ====
section
/-! SUPPORT. Ring indices, the cell and slot files, the saturating primitives: one lemma each that later
proofs cite instead of unfolding them. -/

namespace Sys2Proof.Machine

/-! ### Ring indices -/

theorem wrap_lt {m : Nat} (hm : 0 < m) (a k : Nat) : wrap m a k < m := Nat.mod_lt _ hm

theorem wrap_wrap (m a k l : Nat) : wrap m (wrap m a k) l = wrap m a (k + l) := by
  simp [wrap, Nat.add_assoc]

theorem wrap_inj {m a k l : Nat} (hk : k < m) (hl : l < m) (h : wrap m a k = wrap m a l) : k = l := by
  simp only [wrap] at h
  have := Nat.ModEq.add_left_cancel' a (show a + k ≡ a + l [MOD m] from h)
  rwa [Nat.ModEq, Nat.mod_eq_of_lt hk, Nat.mod_eq_of_lt hl] at this

/-- Every index of a ring is some distance ahead of any cursor. -/
theorem exists_wrap_eq {m : Nat} (a : Nat) {i : Nat} (hi : i < m) : ∃ k < m, wrap m a k = i := by
  have hm : 0 < m := by omega
  have ha := Nat.mod_lt a hm
  refine ⟨(i + (m - a % m)) % m, Nat.mod_lt _ hm, ?_⟩
  simp only [wrap, Nat.add_mod_mod]
  rw [← Nat.mod_add_mod a m, show a % m + (i + (m - a % m)) = i + m by omega, Nat.add_mod_right,
    Nat.mod_eq_of_lt hi]

@[simp] theorem wrap_mod (m a k : Nat) : wrap m a k % m = wrap m a k := by
  simp [wrap]

theorem wrap16_toNat (a k : Nat) : (BitVec.ofNat 4 (wrap 16 a k)).toNat = wrap 16 a k := by
  simp [wrap]

theorem wrap32_toNat (a k : Nat) : (BitVec.ofNat 5 (wrap 32 a k)).toNat = wrap 32 a k := by
  simp [wrap]

/-! ### The cell file -/

theorem cellAt_setCell (cs : Vector Word 16) (i j : Nat) (v : Word) :
    cellAt (setCell cs i v) j = if i % 16 = j % 16 then v else cellAt cs j := by
  simp [cellAt, setCell, Vector.getElem_set]

@[simp] theorem cellAt_replicate (v : Word) (i : Nat) : cellAt (Vector.replicate 16 v) i = v := by
  simp [cellAt]

theorem cellAt_mod (cs : Vector Word 16) (i : Nat) : cellAt cs (i % 16) = cellAt cs i := by
  simp [cellAt]

theorem cells_ext {cs ds : Vector Word 16} (h : ∀ i < 16, cellAt cs i = cellAt ds i) : cs = ds := by
  ext i hi : 1
  simpa [cellAt, Nat.mod_eq_of_lt hi] using h i hi

/-! ### The slot file -/

theorem slotAt_setSlot (ss : Vector Slot 32) (i j : Nat) (e : Slot) :
    slotAt (setSlot ss i e) j = if i % 32 = j % 32 then e else slotAt ss j := by
  simp [slotAt, setSlot, Vector.getElem_set]

@[simp] theorem slotAt_replicate (e : Slot) (i : Nat) : slotAt (Vector.replicate 32 e) i = e := by
  simp [slotAt]

theorem slotAt_mod (ss : Vector Slot 32) (i : Nat) : slotAt ss (i % 32) = slotAt ss i := by
  simp [slotAt]

theorem slots_ext {ss ts : Vector Slot 32} (h : ∀ i < 32, slotAt ss i = slotAt ts i) : ss = ts := by
  ext i hi : 1
  simpa [slotAt, Nat.mod_eq_of_lt hi] using h i hi

/-! ### Saturation and encoding -/

theorem sat16_bounds (x : Int) : -32768 ≤ sat16 x ∧ sat16 x ≤ 32767 := by
  unfold sat16; omega

theorem sat16_of_mem {x : Int} (h : -32768 ≤ x) (h' : x ≤ 32767) : sat16 x = x := by
  unfold sat16; omega

/-- Saturation commutes with the mirror x ↦ -1 - x (42_generate.md R132). -/
theorem sat16_mirror (x : Int) : sat16 (-1 - x) = -1 - sat16 x := by
  unfold sat16; omega

theorem sat32_bounds (x : Int) : -2147483648 ≤ sat32 x ∧ sat32 x ≤ 2147483647 := by
  unfold sat32; omega

theorem sat32_of_mem {x : Int} (h : -2147483648 ≤ x) (h' : x ≤ 2147483647) : sat32 x = x := by
  unfold sat32; omega

/-- A 32-bit pattern reads back as the integer it encodes. -/
theorem enc32_toInt {x : Int} (h : -2147483648 ≤ x) (h' : x ≤ 2147483647) : (enc32 x).toInt = x := by
  simp only [enc32, BitVec.toInt_ofInt]
  exact Int.bmod_eq_of_le (by norm_num; omega) (by norm_num; omega)

theorem enc32_sat32_toInt (x : Int) : (enc32 (sat32 x)).toInt = sat32 x :=
  enc32_toInt (sat32_bounds x).1 (sat32_bounds x).2

/-- A cell always holds an s32. -/
theorem cell_toInt_bounds (w : Word) : -2147483648 ≤ w.toInt ∧ w.toInt ≤ 2147483647 := by
  have h1 := w.le_toInt
  have h2 := w.toInt_lt
  norm_num at h1 h2
  omega

/-! ### Responses and faults -/

theorem respond_eq_answered (err : Bool) (data : Word) (s : State) : respond err data s = answered err data s := rfl

theorem refuse_eq (s : State) : refuse s = answered true 0#32 s := rfl

theorem recordFault_of_faulted {s : State} (h : s.fault = true) (c : Cause) : recordFault c s = s := by
  simp [recordFault, h]

/-- Taking a fault in an unfaulted state is `faultedBy`; in a faulted one it only responds (R172). -/
theorem raiseFault_cases (c : Cause) (s : State) :
    (s.fault = false ∧ raiseFault c s = faultedBy c s) ∨
    (s.fault = true ∧ raiseFault c s = answered true 0#32 s) := by
  cases h : s.fault
  · exact .inl ⟨rfl, by simp [raiseFault, recordFault, respond, faultedBy, h]⟩
  · exact .inr ⟨rfl, by simp [raiseFault, recordFault_of_faulted h, respond_eq_answered]⟩

end Sys2Proof.Machine
end

