-- ==== Sys2Proof/Laws/Datapath.lean ====
section
/-! SUPPORT. The datapath's shared operations, each by one lemma that says all it does: table range,
crossing, scatter, insertion, retirement, aging. -/

namespace Sys2Proof.Machine

/-! ### Contributions (R97) -/

theorem tableEntry_bounds (t : StepTable) (f : BitVec 4) (k : Nat) :
    -32768 ≤ tableEntry t f k ∧ tableEntry t f k ≤ 32767 := by
  unfold tableEntry
  have h1 := ((t[f.toNat]'f.isLt)[k % 16]'(Nat.mod_lt _ (by decide))).le_toInt
  have h2 := ((t[f.toNat]'f.isLt)[k % 16]'(Nat.mod_lt _ (by decide))).toInt_lt
  norm_num at h1 h2
  omega

theorem contrib_bounds (t : StepTable) (f : BitVec 4) (k : Nat) (r : Bool) :
    -65536 ≤ contrib t f k r ∧ contrib t f k r ≤ 65536 := by
  have := tableEntry_bounds t f k
  unfold contrib
  cases r <;> simp only [Bool.false_eq_true, if_true, if_false] <;> omega

theorem contrib_not (t : StepTable) (f : BitVec 4) (k : Nat) (r : Bool) :
    contrib t f k (!r) = -contrib t f k r := by
  unfold contrib
  cases r <;> simp

/-! ### Detector (R99 to R103) -/

theorem naive_bounds (fam : Family) (s : State) (p1 : Word) :
    -32768 ≤ naive fam s p1 ∧ naive fam s p1 ≤ 32767 := by
  have := (p1.extractLsb' 16 16).isLt
  cases fam <;> simp only [naive, phaseHigh] <;> omega

theorem detect_length_le_two (fam : Family) (s : State) (p1 d : Word) : (detect fam s p1 d).length ≤ 2 := by
  have h : (detect fam s p1 d).length ≤ (edges fam s).length := by
    simpa [detect] using List.length_filter_le _ _
  have h2 : (edges fam s).length ≤ 2 := by cases fam <;> simp [edges]
  omega

theorem frac_lt {q d : Nat} (h : q < d) : 16 * q / d < 16 :=
  Nat.div_lt_of_lt_mul (by omega)

/-! ### Scatter (R107) -/

theorem cellAt_addTap (t : StepTable) (w : Nat) (e : StepEvent) (cs : Vector Word 16) {k l : Nat}
    (hk : k < 16) (hl : l < 16) :
    cellAt (addTap t w e cs k) (wrap 16 w l) =
      if k = l then enc32 (sat32 ((cellAt cs (wrap 16 w l)).toInt + contrib t e.frac l e.rising))
      else cellAt cs (wrap 16 w l) := by
  have hm : ∀ a b, wrap 16 a b % 16 = wrap 16 a b := fun a b => Nat.mod_eq_of_lt (wrap_lt (by decide) a b)
  rw [addTap, cellAt_setCell, hm, hm]
  by_cases h : k = l
  · subst h; simp
  · have : wrap 16 w k ≠ wrap 16 w l := fun h' => h (wrap_inj hk hl h')
    simp [h, this]

/-- The first n taps of an event land in the first n cells of the window. -/
theorem cellAt_addTaps (t : StepTable) (w : Nat) (e : StepEvent) (cs : Vector Word 16) {n k : Nat}
    (hn : n ≤ 16) (hk : k < 16) :
    cellAt ((List.range n).foldl (addTap t w e) cs) (wrap 16 w k) =
      if k < n then enc32 (sat32 ((cellAt cs (wrap 16 w k)).toInt + contrib t e.frac k e.rising))
      else cellAt cs (wrap 16 w k) := by
  induction n with
  | zero => simp
  | succ n ih =>
    rw [List.range_succ, List.foldl_append, List.foldl_cons, List.foldl_nil,
      cellAt_addTap _ _ _ _ (by omega) hk, ih (by omega)]
    by_cases h : n = k
    · subst h; simp
    · by_cases h2 : k < n
      · simp [h, h2, show k < n + 1 by omega]
      · simp [h, h2, show ¬k < n + 1 by omega]

/-- `scatter` adds tap k, with saturation, to the cell k samples ahead, for every k in 0..15. -/
theorem cellAt_scatter (t : StepTable) (w : Nat) (e : StepEvent) (cs : Vector Word 16) {k : Nat} (hk : k < 16) :
    cellAt (scatter t w e cs) (wrap 16 w k) =
      enc32 (sat32 ((cellAt cs (wrap 16 w k)).toInt + contrib t e.frac k e.rising)) := by
  rw [scatter, cellAt_addTaps _ _ _ _ (Nat.le_refl _) hk, if_pos hk]

/-! ### Insertion (R107) -/

theorem dueCell_insertEvent (s : State) (e : StepEvent) {k : Nat} (hk : k < 16) :
    dueCell (insertEvent s e) k = sat32 (dueCell s k + contrib s.table e.frac k e.rising) := by
  simp only [dueCell, insertEvent_wptr, insertEvent_cells, cellAt_scatter _ _ _ _ hk, enc32_sat32_toInt]

/-- With room below the s32 bound, insertion adds the tap exactly (R112). -/
theorem dueCell_insertEvent_exact (s : State) (e : StepEvent) {k : Nat} (hk : k < 16)
    (h : -2147418112 ≤ dueCell s k) (h' : dueCell s k ≤ 2147418111) :
    dueCell (insertEvent s e) k = dueCell s k + contrib s.table e.frac k e.rising := by
  have := contrib_bounds s.table e.frac k e.rising
  rw [dueCell_insertEvent s e hk, sat32_of_mem (by omega) (by omega)]

theorem insertEvent_slotAt (s : State) (e : StepEvent) (i : Nat) :
    slotAt (insertEvent s e).slots i =
      if s.tail.toNat = i % 32 then ⟨e.frac, e.rising, 0#5⟩ else slotAt s.slots i := by
  rw [insertEvent_slots, slotAt_setSlot, Nat.mod_eq_of_lt (show s.tail.toNat < 32 from s.tail.isLt)]

@[simp] theorem insertAll_nil (s : State) : insertAll [] s = s := rfl
@[simp] theorem insertAll_cons (e : StepEvent) (es : List StepEvent) (s : State) :
    insertAll (e :: es) s = insertAll es (insertEvent s e) := by
  simp only [insertAll, List.foldl_cons]

/-- Insertion writes the cells, the slots, TAIL and COUNT, and nothing else (R35, R107). -/
theorem insertAll_frame (evs : List StepEvent) (s : State) :
    insertAll evs s = { s with
      cells := (insertAll evs s).cells, slots := (insertAll evs s).slots,
      tail := (insertAll evs s).tail, count := (insertAll evs s).count } := by
  induction evs generalizing s with
  | nil => rfl
  | cons e es ih => rw [insertAll_cons, ih]; simp [insertEvent]

theorem insertAll_count (evs : List StepEvent) (s : State) (h : s.count.toNat + evs.length ≤ 32) :
    (insertAll evs s).count.toNat = s.count.toNat + evs.length := by
  induction evs generalizing s with
  | nil => simp
  | cons e es ih =>
    simp only [List.length_cons] at h ⊢
    have hc : (insertEvent s e).count.toNat = s.count.toNat + 1 := by
      rw [insertEvent_count, BitVec.toNat_ofNat]; exact Nat.mod_eq_of_lt (by omega)
    rw [insertAll_cons, ih _ (by omega), hc]; omega

theorem insertAll_tail (evs : List StepEvent) (s : State) :
    (insertAll evs s).tail.toNat = wrap 32 s.tail.toNat evs.length := by
  induction evs generalizing s with
  | nil => simp [wrap, Nat.mod_eq_of_lt (show s.tail.toNat < 32 from s.tail.isLt)]
  | cons e es ih =>
    rw [insertAll_cons, ih, insertEvent_tail, wrap32_toNat, wrap_wrap, List.length_cons, Nat.add_comm]

/-! ### Retirement (R105) -/

/-- `retire` drops the n oldest live events, all of AGE 16, and stops at one of another AGE; it writes HEAD
and COUNT only. -/
theorem retireUpTo_spec (fuel : Nat) (s : State) (hf : s.count.toNat ≤ fuel) :
    ∃ n ≤ s.count.toNat,
      retireUpTo fuel s = { s with head := BitVec.ofNat 5 (wrap 32 s.head.toNat n), count := BitVec.ofNat 6 (s.count.toNat - n) } ∧
      (∀ j < n, (liveSlot s j).age.toNat = 16) ∧ (n < s.count.toNat → (liveSlot s n).age.toNat ≠ 16) := by
  have h0 : ∀ s : State, s = { s with head := BitVec.ofNat 5 (wrap 32 s.head.toNat 0), count := BitVec.ofNat 6 (s.count.toNat - 0) } := by
    intro s
    have : wrap 32 s.head.toNat 0 = s.head.toNat := by
      simp [wrap, Nat.mod_eq_of_lt (show s.head.toNat < 32 from s.head.isLt)]
    simp [this]
  have hh : ∀ s : State, slotAt s.slots s.head.toNat = liveSlot s 0 := by
    intro s; simp [liveSlot, wrap, slotAt]
  induction fuel generalizing s with
  | zero => exact ⟨0, by omega, h0 s, by simp, by omega⟩
  | succ fuel ih =>
    simp only [retireUpTo]
    split
    · rename_i hr
      simp only [retirable, Bool.and_eq_true, decide_eq_true_eq, hh] at hr
      have hlt : s.count.toNat < 64 := s.count.isLt
      have hc : (retireOne s).count.toNat = s.count.toNat - 1 := by
        rw [retireOne_count, BitVec.toNat_ofNat]; exact Nat.mod_eq_of_lt (by omega)
      have hl : ∀ j, liveSlot (retireOne s) j = liveSlot s (j + 1) := by
        intro j; simp [liveSlot, wrap_wrap, Nat.add_comm]
      obtain ⟨n, hn, he, ha, hs⟩ := ih (retireOne s) (by omega)
      refine ⟨n + 1, by omega, ?_, ?_, ?_⟩
      · rw [he, hc, retireOne_head, wrap32_toNat, wrap_wrap, Nat.add_comm 1 n, Nat.sub_sub, Nat.add_comm 1 n]
        rfl
      · intro j hj
        cases j with
        | zero => exact hr.2
        | succ j => rw [← hl]; exact ha j (by omega)
      · intro h; rw [← hl]; exact hs (by omega)
    · rename_i hr
      refine ⟨0, by omega, h0 s, by simp, fun hpos hage => hr ?_⟩
      simp [retirable, hh, hpos, hage]

theorem retire_spec (s : State) :
    ∃ n ≤ s.count.toNat,
      retire s = { s with head := BitVec.ofNat 5 (wrap 32 s.head.toNat n), count := BitVec.ofNat 6 (s.count.toNat - n) } ∧
      (∀ j < n, (liveSlot s j).age.toNat = 16) ∧ (n < s.count.toNat → (liveSlot s n).age.toNat ≠ 16) :=
  retireUpTo_spec _ s (Nat.le_refl _)

/-- Retirement writes HEAD and COUNT and nothing else (R35, R105). -/
theorem retire_frame (s : State) : retire s = { s with head := (retire s).head, count := (retire s).count } := by
  obtain ⟨n, -, he, -⟩ := retire_spec s
  rw [he]

/-! ### Aging (R110) -/

theorem slotAt_ageSlot (h : Nat) (ss : Vector Slot 32) {j l : Nat} (hj : j < 32) (hl : l < 32) :
    slotAt (ageSlot h ss j) (wrap 32 h l) =
      if j = l then { slotAt ss (wrap 32 h l) with
        age := BitVec.ofNat 5 ((slotAt ss (wrap 32 h l)).age.toNat + 1) }
      else slotAt ss (wrap 32 h l) := by
  have hm : ∀ a b, wrap 32 a b % 32 = wrap 32 a b := fun a b => Nat.mod_eq_of_lt (wrap_lt (by decide) a b)
  rw [ageSlot, slotAt_setSlot, hm, hm]
  by_cases h' : j = l
  · subst h'; simp
  · have : wrap 32 h j ≠ wrap 32 h l := fun h'' => h' (wrap_inj hj hl h'')
    simp [h', this]

/-- Aging the first n live slots adds 1 to the AGE of each of them and changes no other slot. -/
theorem slotAt_ageSlots (h : Nat) (ss : Vector Slot 32) {n l : Nat} (hn : n ≤ 32) (hl : l < 32) :
    slotAt ((List.range n).foldl (ageSlot h) ss) (wrap 32 h l) =
      if l < n then { slotAt ss (wrap 32 h l) with
        age := BitVec.ofNat 5 ((slotAt ss (wrap 32 h l)).age.toNat + 1) }
      else slotAt ss (wrap 32 h l) := by
  induction n with
  | zero => simp
  | succ n ih =>
    rw [List.range_succ, List.foldl_append, List.foldl_cons, List.foldl_nil,
      slotAt_ageSlot _ _ (by omega) hl, ih (by omega)]
    by_cases h' : n = l
    · subst h'; simp
    · by_cases h2 : l < n
      · simp [h', h2, show l < n + 1 by omega]
      · simp [h', h2, show ¬l < n + 1 by omega]

/-- `ageAll` ages exactly the live slots (R110). -/
theorem liveSlot_ageAll (s : State) (hc : s.count.toNat ≤ 32) {j : Nat} (hj : j < 32) :
    liveSlot (ageAll s) j =
      if j < s.count.toNat then { liveSlot s j with age := BitVec.ofNat 5 ((liveSlot s j).age.toNat + 1) }
      else liveSlot s j := by
  simpa [liveSlot] using slotAt_ageSlots s.head.toNat s.slots hc hj

/-! ### Clearing and the window (R109, R111) -/

theorem dueCell_clearCell (s : State) {j : Nat} (hj : j < 16) :
    dueCell (clearCell s) j = if j = 0 then 0 else dueCell s j := by
  have hw : s.wptr.toNat % 16 = s.wptr.toNat := Nat.mod_eq_of_lt s.wptr.isLt
  have hm : wrap 16 s.wptr.toNat j % 16 = wrap 16 s.wptr.toNat j := Nat.mod_eq_of_lt (wrap_lt (by decide) _ _)
  simp only [dueCell, clearCell_cells, clearCell_wptr, cellAt_setCell, hw, hm]
  by_cases h : j = 0
  · subst h; simp [wrap, hw]
  · have : s.wptr.toNat ≠ wrap 16 s.wptr.toNat j := by
      intro h'
      exact h (wrap_inj (m := 16) (a := s.wptr.toNat) (by decide) hj (by simpa [wrap, hw] using h')).symm
    simp [h, this]

/-- Advancing the window makes the cell due in j + 1 samples due in j. -/
theorem dueCell_advanceWindow (p1 : Word) (s : State) (j : Nat) :
    dueCell (advanceWindow p1 s) j = dueCell s (j + 1) := by
  simp [dueCell, wrap_wrap, Nat.add_comm]

end Sys2Proof.Machine
end

