-- ==== Sys2Proof/Laws/Gen.lean ====
section
/-! SUPPORT. GEN as a whole: how it can end, and what its emission writes (42_generate.md R130). -/

namespace Sys2Proof.Machine

/-- The last steps of a GEN write PHASE, CELL, WPTR and SLOT, add one response, and leave the rest (R35, R130). -/
theorem emitSample_eq (fam : Family) (p1 : Word) (s : State) :
    emitSample fam p1 s = { s with
      phase := p1
      wptr := BitVec.ofNat 4 (wrap 16 s.wptr.toNat 1)
      cells := setCell s.cells s.wptr.toNat 0#32
      slots := (ageAll s).slots
      pending := s.pending ++ [⟨false, enc32 (outputSample fam p1 s)⟩] } := by
  simp only [emitSample, respond, advanceWindow, ageAll, clearCell]

/-- A GEN is refused, faults by one of the four causes in their order of priority, or emits one sample; the
condition of each end is with it (60_exceptions.md R174). -/
theorem genCommand_cases (fam : Family) (src : PhaseSource) (s : State) :
    (s.fault = true ∧ genCommand fam src s = refuse s) ∨
    (s.fault = false ∧ s.mode = .none ∧ genCommand fam src s = faultedBy .uninit s) ∨
    (s.fault = false ∧ s.mode ≠ .none ∧ s.mode ≠ familyMode fam ∧ genCommand fam src s = faultedBy .mode s) ∨
    (s.fault = false ∧ s.mode = familyMode fam ∧ outOfRange src s = true ∧
      genCommand fam src s = faultedBy .range s) ∨
    (s.fault = false ∧ s.mode = familyMode fam ∧ outOfRange src s = false ∧
      overfull (eventsOf fam src s).length (retire s) = true ∧ genCommand fam src s = faultedBy .overflow s) ∨
    (s.fault = false ∧ s.mode = familyMode fam ∧ outOfRange src s = false ∧
      overfull (eventsOf fam src s).length (retire s) = false ∧
      genCommand fam src s = emitSample fam (newPhase src s) (insertAll (eventsOf fam src s) (retire s))) := by
  have hr : ∀ c, s.fault = false → raiseFault c s = faultedBy c s := fun c h => by
    rcases raiseFault_cases c s with h' | h'
    · exact h'.2
    · simp [h] at h'
  by_cases hf : s.fault = true
  · exact .inl ⟨hf, by simp [genCommand, hf]⟩
  have hf' : s.fault = false := by simpa using hf
  by_cases hm : s.mode = .none
  · exact .inr (.inl ⟨hf', hm, by simp [genCommand, hf', hm, hr]⟩)
  by_cases hm2 : s.mode = familyMode fam
  · have hn : familyMode fam ≠ .none := by rw [← hm2]; exact hm
    have hg : genCommand fam src s = if outOfRange src s then raiseFault .range s
        else if overfull (eventsOf fam src s).length (retire s) then raiseFault .overflow s
        else emitSample fam (newPhase src s) (insertAll (eventsOf fam src s) (retire s)) := by
      simp only [genCommand, hf', hm2, hn, if_false, Bool.false_eq_true, ne_eq, not_true_eq_false]
      rfl
    cases ho : outOfRange src s
    · cases hv : overfull (eventsOf fam src s).length (retire s)
      · exact .inr (.inr (.inr (.inr (.inr ⟨hf', hm2, rfl, rfl, by simp [hg, ho, hv]⟩))))
      · exact .inr (.inr (.inr (.inr (.inl ⟨hf', hm2, rfl, rfl, by simp [hg, ho, hv, hr, hf']⟩))))
    · exact .inr (.inr (.inr (.inl ⟨hf', hm2, rfl, by simp [hg, ho, hr, hf']⟩)))
  · exact .inr (.inr (.inl ⟨hf', hm, hm2, by simp [genCommand, hf', hm, hm2, hr]⟩))

/-- The part of the RANGE check that is about an external phase only (R91). -/
theorem outOfRange_eq_false_iff (src : PhaseSource) (s : State) :
    outOfRange src s = false ↔ ∀ ph, src = .external ph → (ph - s.phase).toNat ≤ Config.freqMax.toNat := by
  cases src <;> simp [outOfRange]

theorem familyMode_ne_none (fam : Family) : familyMode fam ≠ .none := by cases fam <;> simp [familyMode]

end Sys2Proof.Machine
end

