-- ==== Sys2Proof/Laws/PerInstr.lean ====
section
/-! SUPPORT. Statements about every instruction as syntax, one lemma per constructor. -/

namespace Sys2Proof.Laws.ReservedBits

/-- The command word of every instruction has RSV, CMD[31:16], zero (30_encoding.md R71). -/
def Statement (i : Instr) : Prop := fieldRsv (encode i).1 = 0#16

/-- The RSV field of a packed word is zero whatever the other fields hold. -/
theorem fieldRsv_packFields (op : BitVec 4) (fam : BitVec 2) (ps polb : Bool) (reg : BitVec 8) :
    fieldRsv (packFields op fam ps polb reg) = 0#16 := by
  unfold fieldRsv packFields placeField
  ext i hi
  simp [show ¬ (16 + i < 4) by omega, show ¬ (16 + i < 6) by omega, show ¬ (16 + i < 7) by omega,
    show ¬ (16 + i < 8) by omega]
  exact ⟨⟨⟨⟨fun _ => BitVec.getLsbD_of_ge _ _ (by omega), fun _ _ => BitVec.getLsbD_of_ge _ _ (by omega)⟩,
    by omega⟩, by omega⟩, fun _ _ => BitVec.getLsbD_of_ge _ _ (by omega)⟩

theorem nop : Statement .nop := fieldRsv_packFields _ _ _ _ _
theorem initSaw (f : Word) : Statement (.initSaw f) := fieldRsv_packFields _ _ _ _ _
theorem initRsaw (f : Word) : Statement (.initRsaw f) := fieldRsv_packFields _ _ _ _ _
theorem initSq (f : Word) : Statement (.initSq f) := fieldRsv_packFields _ _ _ _ _
theorem genSaw (src : PhaseSource) : Statement (.genSaw src) := fieldRsv_packFields _ _ _ _ _
theorem genRsaw (src : PhaseSource) : Statement (.genRsaw src) := fieldRsv_packFields _ _ _ _ _
theorem genSq (src : PhaseSource) : Statement (.genSq src) := fieldRsv_packFields _ _ _ _ _
theorem setph (ph : Word) : Statement (.setph ph) := fieldRsv_packFields _ _ _ _ _
theorem cfgsq (polb : Bool) (wid : Word) : Statement (.cfgsq polb wid) := fieldRsv_packFields _ _ _ _ _
theorem rdreg (reg : Nat) : Statement (.rdreg reg) := fieldRsv_packFields _ _ _ _ _

end Sys2Proof.Laws.ReservedBits
end

