-- ==== Sys2Proof/Laws/Step.lean ====
section
/-! SUPPORT. `exec`, `runCommand` and `step`: every command and every clock edge answers a next state, and the
ways a step can go. -/

namespace Sys2Proof.Machine

/-! ### exec as a next state -/

theorem exec_initOf (fam : Family) (f : Word) (s : State) : exec (initOf fam f) s = .next (initCommand fam f s) := by
  cases fam <;> rfl

theorem exec_genOf (fam : Family) (src : PhaseSource) (s : State) :
    exec (genOf fam src) s = .next (genCommand fam src s) := by
  cases fam <;> rfl

theorem exec_rdreg (reg : Nat) (s : State) :
    exec (.rdreg reg) s = .next (match regValue reg s with
      | some v => respond false v s
      | none => raiseFault .illegal s) := by
  simp only [exec, execRdreg]
  split <;> simp_all

/-- No command stops the machine: `exec` answers the state `after` names. -/
theorem exec_eq_next_after (i : Instr) (s : State) : exec i s = .next (after i s) := by
  cases i <;> simp only [after, exec, execNop, execInitSaw, execInitRsaw, execInitSq, execGenSaw, execGenRsaw,
    execGenSq, execSetph, execCfgsq, execRdreg]
  split <;> rfl

@[simp] theorem after_initOf (fam : Family) (f : Word) (s : State) : after (initOf fam f) s = initCommand fam f s := by
  simp [after, exec_initOf]

@[simp] theorem after_genOf (fam : Family) (src : PhaseSource) (s : State) :
    after (genOf fam src) s = genCommand fam src s := by
  simp [after, exec_genOf]

@[simp] theorem afterAll_nil (s : State) : afterAll [] s = s := rfl

@[simp] theorem afterAll_cons (i : Instr) (is : List Instr) (s : State) :
    afterAll (i :: is) s = afterAll is (after i s) := rfl

theorem afterAll_append (is js : List Instr) (s : State) :
    afterAll (is ++ js) s = afterAll js (afterAll is s) := by
  simp [afterAll, List.foldl_append]

/-- Every instruction is one of the control commands, or INIT or GEN of a family. -/
theorem instr_cases (i : Instr) :
    i = .nop ∨ (∃ ph, i = .setph ph) ∨ (∃ p w, i = .cfgsq p w) ∨ (∃ reg, i = .rdreg reg) ∨
    (∃ fam f, i = initOf fam f) ∨ (∃ fam src, i = genOf fam src) := by
  cases i with
  | nop => exact .inl rfl
  | initSaw f => exact .inr (.inr (.inr (.inr (.inl ⟨.saw, f, rfl⟩))))
  | initRsaw f => exact .inr (.inr (.inr (.inr (.inl ⟨.rsaw, f, rfl⟩))))
  | initSq f => exact .inr (.inr (.inr (.inr (.inl ⟨.sq, f, rfl⟩))))
  | genSaw src => exact .inr (.inr (.inr (.inr (.inr ⟨.saw, src, rfl⟩))))
  | genRsaw src => exact .inr (.inr (.inr (.inr (.inr ⟨.rsaw, src, rfl⟩))))
  | genSq src => exact .inr (.inr (.inr (.inr (.inr ⟨.sq, src, rfl⟩))))
  | setph ph => exact .inr (.inl ⟨ph, rfl⟩)
  | cfgsq p w => exact .inr (.inr (.inl ⟨p, w, rfl⟩))
  | rdreg reg => exact .inr (.inr (.inr (.inl ⟨reg, rfl⟩)))

/-- INIT is refused while faulted, and otherwise initialises and responds (0, 0) (R120). -/
theorem initCommand_cases (fam : Family) (f : Word) (s : State) :
    (s.fault = true ∧ initCommand fam f s = refuse s) ∨
    (s.fault = false ∧ initCommand fam f s = respond false 0#32 (initDatapath fam f s)) := by
  cases h : s.fault
  · exact .inr ⟨rfl, by simp [initCommand, h]⟩
  · exact .inl ⟨rfl, by simp [initCommand, h]⟩

/-! ### Steps -/

/-- While rst = 1 both output ports of the handshake are 0 (R190). -/
theorem ports_of_rst {e : PortEdge} (h : e.rst = true) : e.cmdReady = false ∧ e.rspValid = false := by
  simp [PortEdge.cmdReady, PortEdge.rspValid, h]

/-- While rst = 0 both output ports stand at the level BLOSC's timing gives them (R52). -/
theorem ports_of_not_rst {e : PortEdge} (h : e.rst = false) :
    e.cmdReady = e.readyLevel ∧ e.rspValid = e.validLevel := by
  simp [PortEdge.cmdReady, PortEdge.rspValid, h]

/-- Acceptance and delivery are the handshake of the two ports alone: rst is in the ports already. -/
theorem handshake_eq (e : PortEdge) :
    e.accepts = (e.cmdValid && e.cmdReady) ∧ e.takes = (e.rspValid && e.rspReady) := by
  cases h : e.rst <;> simp [PortEdge.accepts, PortEdge.takes, PortEdge.cmdReady, PortEdge.rspValid, h]

/-- A command word decodes and executes, or is illegal and raises ILLEGAL (R76, R77). -/
theorem runCommand_cases (cmd data : Word) (s : State) :
    (∃ i, decode cmd data = .command i ∧ runCommand cmd data s = .next (after i s)) ∨
    (decode cmd data = .illegal ∧ runCommand cmd data s = .next (raiseFault .illegal s)) := by
  cases h : decode cmd data with
  | command i => exact .inl ⟨i, rfl, by simp [runCommand, h, exec_eq_next_after]⟩
  | illegal => exact .inr ⟨rfl, by simp [runCommand, h, execIllegal]⟩

/-- The ways a step can go: no edge left, reset, an edge without a command, a command, an illegal word. -/
theorem step_cases {s t : State} (h : step s = .next t) :
    (s.inputs = [] ∧ t = s) ∨
    ∃ e rest, s.inputs = e :: rest ∧
      ((e.rst = true ∧ t = ({ s with inputs := rest } : State).applyReset) ∨
       (e.rst = false ∧ e.accepts = false ∧ t = deliver e { s with inputs := rest }) ∨
       (e.rst = false ∧ e.accepts = true ∧ ∃ i, decode e.cmdWord e.cmdData = .command i ∧
          t = after i (deliver e { s with inputs := rest })) ∨
       (e.rst = false ∧ e.accepts = true ∧ decode e.cmdWord e.cmdData = .illegal ∧
          t = raiseFault .illegal (deliver e { s with inputs := rest }))) := by
  unfold step at h
  split at h
  · rename_i hi
    exact .inl ⟨hi, by simpa using h.symm⟩
  · rename_i e rest hi
    refine .inr ⟨e, rest, hi, ?_⟩
    cases hr : e.rst
    · cases ha : e.accepts
      · simp only [hr, ha, Bool.false_eq_true, if_false, Host.Outcome.next.injEq] at h
        exact .inr (.inl ⟨rfl, rfl, h.symm⟩)
      · simp only [hr, ha, Bool.false_eq_true, if_false, if_true] at h
        rcases runCommand_cases e.cmdWord e.cmdData (deliver e { s with inputs := rest }) with ⟨i, hd, hx⟩ | ⟨hd, hx⟩
        · rw [hx] at h
          exact .inr (.inr (.inl ⟨rfl, rfl, i, hd, by simpa using h.symm⟩))
        · rw [hx] at h
          exact .inr (.inr (.inr ⟨rfl, rfl, hd, by simpa using h.symm⟩))
    · simp only [hr, if_true, Host.Outcome.next.injEq] at h
      exact .inl ⟨rfl, h.symm⟩

/-- `withFetchWord` runs exactly the command its word decodes to. -/
theorem step_withFetchWord {s : State} {nbits w : Nat} {i : Instr} (h : decodeTableWord nbits w = some i) :
    step (s.withFetchWord nbits w) = exec i s := by
  unfold decodeTableWord at h
  split at h
  · rename_i j hj
    cases h
    have hs : step (s.withFetchWord nbits w) =
        runCommand (BitVec.ofNat 32 (w % 2 ^ nbits)) (BitVec.ofNat 32 (w % 2 ^ nbits / 2 ^ 32)) s := rfl
    rw [hs, runCommand, hj]
  · cases h

end Sys2Proof.Machine
end

