-- ==== Sys2Proof/Tests/Slice0.lean ====
section
/-! SUPPORT. The model's own tests: well-formedness, one decoded word per constructor written from the pattern
strings of 30_encoding.md R73, single steps with the results of 95_test_vectors.md, and for each statement with
hypotheses a witness that meets them. -/

namespace Sys2Proof.Tests
open Sys2Proof Sys2Proof.Machine

/-! ### Well-formedness and parameters -/

/-- REG has 8 bits (R71): 256 is no register number. -/
theorem test_rdreg_256_is_ill_formed : WellFormed (.rdreg 256) = false := by decide

/-- The parameter constraints of 00_scope.md R8. -/
theorem test_parameters_meet_the_constraints :
    (Config.W = 2 ^ 4 ∧ 2 ≤ Config.W ∧ Config.W ≤ 16) ∧ Config.FL = Config.W ∧
    (2 * Config.W ≤ Config.E ∧ Config.E ≤ 32) ∧ (Config.P = 32 ∧ Config.freqMax.toNat < 2 ^ (Config.P - 1)) ∧
    (Config.S = 16 ∧ Config.U = 2 ^ (Config.S - 1)) := by decide

/-- TABLE_REF rows 0 and 15 (40_datapath.md R94). -/
theorem test_tableRef_rows :
    (tableEntry tableRef 0#4 0 = -32256 ∧ tableEntry tableRef 0#4 1 = -15872 ∧ tableEntry tableRef 0#4 2 = 0) ∧
    (tableEntry tableRef 15#4 0 = -16896 ∧ tableEntry tableRef 15#4 1 = -512 ∧ tableEntry tableRef 15#4 15 = 0) := by
  decide

/-! ### Decoding: one word per constructor, bit 31 to bit 0 (R73) -/

theorem test_decode_nop :
    decode 0b0000000000000000_00000000_0_0_00_0000#32 0xDEADBEEF#32 = .command .nop := by decide
theorem test_decode_initSaw :
    decode 0b0000000000000000_00000000_0_0_00_0001#32 0x10000000#32 = .command (.initSaw 0x10000000#32) := by decide
theorem test_decode_initRsaw :
    decode 0b0000000000000000_00000000_0_0_01_0001#32 0x10000000#32 = .command (.initRsaw 0x10000000#32) := by decide
theorem test_decode_initSq :
    decode 0b0000000000000000_00000000_0_0_10_0001#32 0x05CE13BD#32 = .command (.initSq 0x05CE13BD#32) := by decide
theorem test_decode_genSaw :
    decode 0b0000000000000000_00000000_0_1_00_0010#32 0x40000000#32 =
      .command (.genSaw (.external 0x40000000#32)) := by decide
theorem test_decode_genRsaw :
    decode 0b0000000000000000_00000000_0_0_01_0010#32 0x40000000#32 = .command (.genRsaw .internal) := by decide
theorem test_decode_genSq :
    decode 0b0000000000000000_00000000_0_1_10_0010#32 0x12345678#32 =
      .command (.genSq (.external 0x12345678#32)) := by decide
theorem test_decode_setph :
    decode 0b0000000000000000_00000000_0_0_00_0011#32 0xF0000000#32 = .command (.setph 0xF0000000#32) := by decide
theorem test_decode_cfgsq :
    decode 0b0000000000000000_00000000_1_0_00_0100#32 0x40000000#32 = .command (.cfgsq true 0x40000000#32) := by decide
theorem test_decode_rdreg :
    decode 0b0000000000000000_00111111_0_0_00_0101#32 0#32 = .command (.rdreg 0x3F) := by decide

/-- The illegal words of 95_test_vectors.md 2.7.3. -/
theorem test_decode_illegal :
    ([0x6, 0xF, 0x31, 0x32, 0x41, 0x43, 0x44, 0x81, 0x82, 0xC2, 0x83, 0x85, 0x102, 0x10004, 0x80000002] : List Word).all
      (fun w => decide (decode w 0#32 = .illegal)) = true := by decide

/-! ### Small states -/

/-- After `init.saw 0x10000000` and 16 `gen.saw` (43_control.md R153, example): one falling event of AGE 1, its
second tap in CELL 0. -/
def afterWrapSaw : State := { State.reset with
  mode := .saw, freq := 0x10000000#32
  cells := setCell State.reset.cells 0 31744#32
  slots := setSlot State.reset.slots 0 ⟨0#4, false, 1#5⟩, tail := 1#5, count := 1#6 }

/-- The reverse-sawtooth mirror of `afterWrapSaw`. -/
def afterWrapRsaw : State := { State.reset with
  mode := .rsaw, freq := 0x10000000#32
  cells := setCell State.reset.cells 0 (BitVec.ofInt 32 (-31744))
  slots := setSlot State.reset.slots 0 ⟨0#4, true, 1#5⟩, tail := 1#5, count := 1#6 }

/-- After row 4 of 95_test_vectors.md 2.4.3: a square with both edges crossed in one sample. -/
def afterBothEdges : State := { State.reset with
  mode := .sq, freq := 0x10000000#32, width := 0x04000000#32, phase := 0x08000000#32, wptr := 1#4
  cells := setCell State.reset.cells 1 8192#32
  slots := setSlot (setSlot State.reset.slots 0 ⟨8#4, true, 1#5⟩) 1 ⟨4#4, false, 1#5⟩, tail := 2#5, count := 2#6 }

/-- A square of WIDTH 0 with an empty ring, just below a wrap. -/
def zeroWidth : State := { State.reset with mode := .sq, width := 0#32, phase := 0xFFFFFFFF#32, freq := 0x10000000#32 }

/-- A ring that holds 32 events none of which retires: no run reaches it. -/
def fullRing : State := { State.reset with mode := .saw, freq := 1#32, phase := 0xFFFFFFFF#32, count := 32#6 }

/-- A faulted block. -/
def faulted : State := { State.reset with mode := .saw, fault := true, cause := some .range }

/-- The response a command adds to a state with none pending. -/
def answerOf (r : Result) : Option Response :=
  match r with
  | .next t => t.pending.head?
  | .fault _ => none
  | .refused _ => none

/-- A state with one edge to come. -/
def atEdge (e : PortEdge) (s : State) : State := { s with inputs := [e] }

/-! ### Single steps (results from 95_test_vectors.md and the rules' examples) -/

/-- `nop` runs while faulted (2.7.1 row 19). -/
theorem test_nop_while_faulted : answerOf (exec .nop faulted) = some ⟨false, 0#32⟩ := by decide

/-- 41_init.md R122 example: a word above FREQ_MAX is clamped. -/
theorem test_initRsaw_clamps :
    (after (.initRsaw 0x90000000#32) State.reset).freq = 0x7FFFFFFF#32 ∧
    (after (.initRsaw 0x90000000#32) State.reset).clamp = true ∧
    (after (.initRsaw 0x90000000#32) State.reset).mode = .rsaw := by decide

/-- FREQ_MAX itself is not clamped and clears CLAMP (2.1.1 row 5). -/
theorem test_initSq_at_freqMax :
    (after (.initSq 0x7FFFFFFF#32) { State.reset with clamp := true }).freq = 0x7FFFFFFF#32 ∧
    (after (.initSq 0x7FFFFFFF#32) { State.reset with clamp := true }).clamp = false := by decide

/-- INIT discards what is in flight (2.1.2). -/
theorem test_initSaw_discards :
    cellAt (after (.initSaw 0x10000000#32) afterWrapSaw).cells 0 = 0#32 ∧
    (after (.initSaw 0x10000000#32) afterWrapSaw).count = 0#6 := by decide

/-- The 16th `gen.saw` wraps with frac 0 (2.2.1 row 17): PHASE 0xF0000000 to 0. -/
theorem test_genSaw_wraps :
    answerOf (exec (.genSaw .internal)
      { State.reset with mode := .saw, freq := 0x10000000#32, phase := 0xF0000000#32, wptr := 15#4 }) =
      some ⟨false, 0x00007C00#32⟩ := by decide

/-- The 17th adds the second tap (2.2.1 row 18). -/
theorem test_genSaw_second_tap :
    answerOf (exec (.genSaw .internal) afterWrapSaw) = some ⟨false, 0x00000C00#32⟩ := by decide

/-- `gen.rsaw ext` wraps with frac 5 (program P2 row 5). -/
theorem test_genRsaw_external :
    answerOf (exec (.genRsaw (.external 0x20000000#32)) { State.reset with mode := .rsaw, phase := 0xC0000000#32 }) =
      some ⟨false, 0xFFFF8BFF#32⟩ := by decide

/-- Downward saturation with a pending tap (2.3.2 row 5). -/
theorem test_genRsaw_saturates :
    answerOf (exec (.genRsaw (.external 0#32)) { afterWrapRsaw with phase := 0xFFFFFFFF#32 }) =
      some ⟨false, 0xFFFF8000#32⟩ := by decide

/-- Both edges in one sample (2.4.3 rows 4, 6, 7). -/
theorem test_genSq_both_edges :
    let t := after (.genSq .internal)
      { State.reset with mode := .sq, freq := 0x10000000#32, width := 0x04000000#32, phase := 0xF8000000#32 }
    t.pending = [⟨false, 0xFFFFA000#32⟩] ∧ slotAt t.slots 0 = ⟨8#4, true, 1#5⟩ ∧ slotAt t.slots 1 = ⟨4#4, false, 1#5⟩ := by
  decide

/-- The sample after it (2.4.3 row 8). -/
theorem test_genSq_next :
    answerOf (exec (.genSq .internal) afterBothEdges) = some ⟨false, 0xFFFFA000#32⟩ := by decide

/-- `setph` while faulted is refused (2.7.1 row 17). -/
theorem test_setph_refused : answerOf (exec (.setph 5#32) faulted) = some ⟨true, 0#32⟩ := by decide

/-- `cfgsq neg, 0x40000000` (43_control.md R152 example). -/
theorem test_cfgsq_example :
    (after (.cfgsq true 0x40000000#32) State.reset).width = 0x40000000#32 ∧
    (after (.cfgsq true 0x40000000#32) State.reset).pol = true := by decide

/-- The reads of the R153 example: ring, slot0, cell0, id. -/
theorem test_rdreg_example :
    answerOf (exec (.rdreg 0x06) afterWrapSaw) = some ⟨false, 0x00010100#32⟩ ∧
    answerOf (exec (.rdreg 0x20) afterWrapSaw) = some ⟨false, 0x00000100#32⟩ ∧
    answerOf (exec (.rdreg 0x10) afterWrapSaw) = some ⟨false, 0x00007C00#32⟩ ∧
    answerOf (exec (.rdreg 0x08) afterWrapSaw) = some ⟨false, 0x20102010#32⟩ := by decide

/-- A reserved number at each end of its ranges faults ILLEGAL and records cause 1 (2.7.3). -/
theorem test_rdreg_reserved :
    ([0x09, 0x0F, 0x40, 0xFF] : List Nat).all (fun r =>
      decide (answerOf (exec (.rdreg r) State.reset) = some ⟨true, 0#32⟩) &&
      decide (statusWord (after (.rdreg r) State.reset) = 0x11#32)) = true := by decide

/-- RANGE is recorded as cause 4 and leaves PHASE (2.7.1 rows 11 to 13). -/
theorem test_range_fault :
    let t := after (.genSaw (.external 0x90000001#32)) { State.reset with mode := .saw, phase := 0x10000000#32 }
    statusWord t = 0x41#32 ∧ t.phase = 0x10000000#32 ∧ t.pending = [⟨true, 0#32⟩] := by decide

/-- The boot example of 70_reset_and_hazards.md R195: the square's first sample is high. -/
theorem test_boot_example :
    answerOf (exec (.genSq .internal)
      { State.reset with mode := .sq, freq := 0x05CE13BD#32, width := 0x40000000#32 }) =
      some ⟨false, 0x00007FFF#32⟩ := by decide

/-- A table word runs as the first command after reset. -/
theorem test_withFetchWord_runs :
    answerOf (step (State.reset.withFetchWord 32 0x00000805)) = some ⟨false, 0x20102010#32⟩ := by decide

/-! ### Witnesses: states and operands that meet the statements' hypotheses -/

theorem inv_afterWrapSaw : Inv afterWrapSaw :=
  ⟨by decide, by decide, by decide, by decide, by decide, by decide, by decide⟩

theorem inv_afterWrapRsaw : Inv afterWrapRsaw :=
  ⟨by decide, by decide, by decide, by decide, by decide, by decide, by decide⟩

theorem inv_afterBothEdges : Inv afterBothEdges :=
  ⟨by decide, by decide, by decide, by decide, by decide, by decide, by decide⟩

theorem inv_zeroWidth : Inv zeroWidth :=
  ⟨by decide, by decide, by decide, by decide, by decide, by decide, by decide⟩

theorem inv_reset : Inv State.reset :=
  ⟨by decide, by decide, by decide, by decide, by decide, by decide, by decide⟩

theorem ready_saw : GenReady .saw .internal afterWrapSaw := ⟨by decide, by decide, nofun⟩

/-- An external phase exactly FREQ_MAX ahead is in range. -/
theorem ready_saw_external : GenReady .saw (.external 0x7FFFFFFF#32) afterWrapSaw :=
  ⟨by decide, by decide, fun ph h => by cases h; decide⟩

theorem ready_rsaw : GenReady .rsaw .internal afterWrapRsaw := ⟨by decide, by decide, nofun⟩

theorem ready_sq : GenReady .sq .internal afterBothEdges := ⟨by decide, by decide, nofun⟩

/-- Premises of GenAnswersTheTapPerSampleOutput, GenRetiresAgesAndInsertsEvents, GenShiftsAndScattersTheWindow,
CapacityIsNeverExceeded and CellsNeverReachTheirBound, for each family. -/
theorem witness_Gen :
    (Inv afterWrapSaw ∧ GenReady .saw .internal afterWrapSaw) ∧
    (Inv afterWrapSaw ∧ GenReady .saw (.external 0x7FFFFFFF#32) afterWrapSaw) ∧
    (Inv afterWrapRsaw ∧ GenReady .rsaw .internal afterWrapRsaw) ∧
    (Inv afterBothEdges ∧ GenReady .sq .internal afterBothEdges) :=
  ⟨⟨inv_afterWrapSaw, ready_saw⟩, ⟨inv_afterWrapSaw, ready_saw_external⟩, ⟨inv_afterWrapRsaw, ready_rsaw⟩,
    ⟨inv_afterBothEdges, ready_sq⟩⟩

/-- The clip of GenAnswersTheTapPerSampleOutput at each end: the phase moved back makes a second step overlap the
first one's tap 1, and the sums 63488 and -63489 answer 32767 and -32768 (2.2.3 row 5 and its mirror). -/
theorem witness_clip :
    (Inv { afterWrapSaw with phase := 0xF0000000#32 } ∧
      GenReady .saw .internal { afterWrapSaw with phase := 0xF0000000#32 } ∧
      answerOf (exec (.genSaw .internal) { afterWrapSaw with phase := 0xF0000000#32 }) =
        some ⟨false, 0x00007FFF#32⟩) ∧
    (Inv { afterWrapRsaw with phase := 0xF0000000#32 } ∧
      GenReady .rsaw .internal { afterWrapRsaw with phase := 0xF0000000#32 } ∧
      answerOf (exec (.genRsaw .internal) { afterWrapRsaw with phase := 0xF0000000#32 }) =
        some ⟨false, 0xFFFF8000#32⟩) :=
  ⟨⟨⟨by decide, by decide, by decide, by decide, by decide, by decide, by decide⟩, ⟨rfl, rfl, nofun⟩, by decide⟩,
    ⟨⟨by decide, by decide, by decide, by decide, by decide, by decide, by decide⟩, ⟨rfl, rfl, nofun⟩, by decide⟩⟩

/-- GenLeavesEverythingElse: a GEN that answers an unfaulted state, with a ring in order and a stale slot. -/
theorem witness_GenLeavesEverythingElse :
    exec (genOf .saw .internal) afterWrapSaw = .next (after (genOf .saw .internal) afterWrapSaw) ∧
    (after (genOf .saw .internal) afterWrapSaw).fault = false ∧ RingOk afterWrapSaw ∧
    ∀ j < (after (genOf .saw .internal) afterWrapSaw).count.toNat,
      wrap 32 (after (genOf .saw .internal) afterWrapSaw).head.toNat j ≠ 5 :=
  ⟨exec_eq_next_after _ _, by decide, by decide, by decide⟩

theorem witness_ZeroWidthSquareAddsNoCorrection :
    Inv zeroWidth ∧ GenReady .sq .internal zeroWidth ∧ zeroWidth.width = 0#32 :=
  ⟨inv_zeroWidth, ⟨by decide, by decide, nofun⟩, rfl⟩

theorem witness_ReverseSawtoothMirrorsTheSawtooth :
    State.reset.fault = false ∧
    Inv afterWrapSaw ∧ MirrorOf afterWrapSaw afterWrapRsaw ∧ GenReady .saw .internal afterWrapSaw :=
  ⟨rfl, inv_afterWrapSaw, ⟨by decide, by decide, by decide, by decide, by decide, by decide, by decide, by decide,
    by decide⟩, ready_saw⟩

theorem witness_StaleSlotsAreSeenOnlyByRdreg :
    Inv afterWrapSaw ∧
    AgreeOnLive afterWrapSaw { afterWrapSaw with slots := setSlot afterWrapSaw.slots 5 ⟨7#4, true, 9#5⟩ } ∧
    ∀ reg, Instr.genSaw .internal = .rdreg reg → reg < 0x20 ∨ 0x40 ≤ reg :=
  ⟨inv_afterWrapSaw, ⟨rfl, by decide⟩, nofun⟩

/-- OutputIsTheClosedFormOfItsHistory, from reset through an INIT and a GEN. -/
theorem witness_OutputIsTheClosedFormOfItsHistory :
    Inv State.reset ∧ State.reset.count.toNat = 0 ∧
    GenReady .saw .internal (runHistory [.initSaw 0x10000000#32, .genSaw .internal] State.reset []).1 :=
  ⟨inv_reset, rfl, by decide, by decide, nofun⟩

theorem witness_WrapsAreCountedByTheAccumulator :
    Inv afterWrapSaw ∧ afterWrapSaw.fault = false ∧ afterWrapSaw.mode = familyMode .saw ∧
    (phaseAfter .saw 1 { afterWrapSaw with phase := 0xF8000000#32 }).toNat <
      (phaseAfter .saw 0 { afterWrapSaw with phase := 0xF8000000#32 }).toNat :=
  ⟨inv_afterWrapSaw, by decide, by decide, by decide⟩

/-- CapacityIsNeverExceeded, second clause: its premises but the last, which the conclusion excludes. -/
theorem witness_CapacityIsNeverExceeded :
    Inv { State.reset with fault := true, cause := some .overflow } ∧
    exec .nop { State.reset with fault := true, cause := some .overflow } =
      .next (after .nop { State.reset with fault := true, cause := some .overflow }) ∧
    (after .nop { State.reset with fault := true, cause := some .overflow }).cause = some .overflow :=
  ⟨⟨by decide, by decide, by decide, by decide, by decide, by decide, by decide⟩, exec_eq_next_after _ _, rfl⟩

theorem witness_ExternalPhaseBackwardFaultsRange :
    (afterWrapSaw.fault = false ∧ afterWrapSaw.mode = familyMode .saw) ∧ Inv afterWrapSaw :=
  ⟨⟨rfl, rfl⟩, inv_afterWrapSaw⟩

theorem witness_DecodeOfEncodeIsIdentity : WellFormed (.rdreg 255) = true := by decide

theorem witness_EncodeOfDecodeIsIdentity :
    decode 0x0000FF05#32 7#32 = .command (.rdreg 255) ∧ decode 0x62#32 7#32 = .command (.genSq (.external 7#32)) := by
  decide

/-- OpcodeMapDecodesByMaskAndMatch: a word for each masked clause with its variable bits set, and one that no
row matches. -/
theorem witness_OpcodeMapDecodesByMaskAndMatch :
    0x42#32 &&& 0xFFFFFFBF#32 = 0x02#32 ∧ 0x52#32 &&& 0xFFFFFFBF#32 = 0x12#32 ∧
    0x62#32 &&& 0xFFFFFFBF#32 = 0x22#32 ∧ 0x84#32 &&& 0xFFFFFF7F#32 = 0x04#32 ∧
    0xFF05#32 &&& 0xFFFF00FF#32 = 0x05#32 ∧ (∀ r ∈ opcodeTable, 0x6#32 &&& r.mask ≠ r.pattern) ∧
    (∃ r ∈ opcodeTable, 0xFF05#32 &&& r.mask = r.pattern) := by decide

theorem witness_IgnoredDataHasNoEffect :
    decode 0x02#32 9#32 = .command (.genSaw .internal) ∧ ignoresData (.genSaw .internal) = true := by decide

theorem witness_IllegalWords :
    decode 0x6#32 0#32 = .illegal ∧ State.reset.fault = false ∧ faulted.fault = true := by decide

/-- StepRunsTheDecodedCommand and ResponsesComeOncePerCommandInOrder: a legal and an illegal word offered. -/
theorem witness_StepRunsTheDecodedCommand :
    (atEdge (offerEdge 0x2#32 0#32) State.reset).inputs = offerEdge 0x2#32 0#32 :: [] ∧
    (offerEdge 0x2#32 0#32).rst = false ∧ (offerEdge 0x2#32 0#32).cmdValid = true ∧
    (offerEdge 0x2#32 0#32).cmdReady = true ∧ decode 0x2#32 0#32 = .command (.genSaw .internal) ∧
    decode 0x6#32 0#32 = .illegal := by decide

theorem witness_ResetEdgeGivesTheResetValues :
    (atEdge { offerEdge 0#32 0#32 with rst := true, validLevel := true } faulted).inputs =
      { offerEdge 0#32 0#32 with rst := true, validLevel := true } :: [] ∧
    ({ offerEdge 0#32 0#32 with rst := true, validLevel := true } : PortEdge).rst = true := by decide

/-- R190: cmd_ready = 0 and rsp_valid = 0 while rst = 1, also where the timing would raise both. -/
theorem test_ports_are_low_under_rst :
    ({ offerEdge 0#32 0#32 with rst := true, validLevel := true } : PortEdge).cmdReady = false ∧
    ({ offerEdge 0#32 0#32 with rst := true, validLevel := true } : PortEdge).rspValid = false ∧
    ({ offerEdge 0#32 0#32 with validLevel := true } : PortEdge).rspValid = true := by decide

/-- OnlyCommandsAndResetChangeTheState: no edge; and an edge whose command BLOSC does not accept yet. -/
theorem witness_OnlyCommandsAndResetChangeTheState :
    State.reset.inputs = [] ∧
    (atEdge { offerEdge 3#32 5#32 with readyLevel := false } State.reset).inputs =
      { offerEdge 3#32 5#32 with readyLevel := false } :: [] ∧
    ({ offerEdge 3#32 5#32 with readyLevel := false } : PortEdge).rst = false ∧
    (({ offerEdge 3#32 5#32 with readyLevel := false } : PortEdge).cmdValid &&
      ({ offerEdge 3#32 5#32 with readyLevel := false } : PortEdge).cmdReady) = false := by decide

theorem witness_InstancesAreIndependent :
    [State.reset, afterWrapSaw][1]? = some afterWrapSaw ∧ [State.reset, afterWrapSaw][2]? = none ∧
    (1 : Nat) ≠ 0 ∧ sharesTable tableRef [State.reset, afterWrapSaw] :=
  ⟨rfl, rfl, by decide, by simp [sharesTable, State.reset, afterWrapSaw]⟩

/-- FracIsTheFloorQuotient at the largest offset (2.2.2 row 3), and the other detector statements. -/
theorem witness_FracIsTheFloorQuotient :
    crossed 0xF#32 0x10#32 ⟨0#32, false⟩ = true ∧ fracOf 0xF#32 0x10#32 ⟨0#32, false⟩ = 15#4 ∧
    (0x10#32 : Word) ≠ 0#32 ∧ zeroWidth.width = 0#32 := by decide

theorem witness_InitSeedsTheDatapath : State.reset.fault = false ∧ faulted.fault = true := by decide

/-- RdregReadsTheRegisterMap and the RDREG rows of the fault statements: the ends of each range. -/
theorem witness_RdregReadsTheRegisterMap :
    ([0x09, 0x0F, 0x40, 0xFF] : List Nat).all (fun reg =>
      decide ((0x09 ≤ reg ∧ reg ≤ 0x0F) ∨ (0x40 ≤ reg ∧ reg ≤ 0xFF))) = true ∧
    ([0x00, 0x08, 0x10, 0x3F] : List Nat).all (fun reg => decide (reg ≤ 0x08 ∨ (0x10 ≤ reg ∧ reg ≤ 0x3F))) = true := by
  decide

theorem witness_RegisterReadsShowEveryElement :
    ∀ reg < 0x40, regValue reg afterWrapSaw = regValue reg { afterWrapSaw with pending := [⟨false, 1#32⟩] } :=
  fun _ _ => rfl

/-- FaultsArePrecise: an error and a good response. -/
theorem witness_FaultsArePrecise :
    runCommand 0x6#32 0#32 State.reset = .next (faultedBy .illegal State.reset) ∧
    runCommand 0x0#32 0#32 State.reset = .next (answered false 0#32 State.reset) :=
  ⟨rfl, rfl⟩

/-- FirstCauseInOrderIsTaken, clause by clause; OVERFLOW needs a ring no run reaches. -/
theorem witness_FirstCauseInOrderIsTaken :
    (State.reset.fault = false ∧ State.reset.mode = .none) ∧
    (afterWrapSaw.mode ≠ .none ∧ afterWrapSaw.mode ≠ familyMode .sq) ∧
    (0x7FFFFFFF < (0x80000000#32 - afterWrapSaw.phase).toNat) ∧
    (GenReady .saw .internal fullRing ∧ 32 < (retire fullRing).count.toNat + (eventsOf .saw .internal fullRing).length) ∧
    (Instr.setph 0#32 ≠ .nop ∧ ∀ reg, Instr.setph 0#32 ≠ .rdreg reg) :=
  ⟨by decide, by decide, by decide, ⟨⟨by decide, by decide, nofun⟩, by decide⟩, by decide, nofun⟩

theorem witness_OnlyResetClearsAFault :
    step (atEdge { offerEdge 0#32 0#32 with rst := true } faulted) =
      .next (atEdge { offerEdge 0#32 0#32 with rst := true } faulted |>.applyReset |> fun t => { t with inputs := [] }) ∧
    step (atEdge (offerEdge 0#32 0#32) faulted) = .next (answered false 0#32 faulted) ∧ faulted.fault = true :=
  ⟨rfl, rfl, rfl⟩

/-- OnlyListedCommandsWriteAnElement: each clause has a command that changes its element. -/
theorem witness_OnlyListedCommandsWriteAnElement :
    (after (.initSaw 1#32) State.reset).freq ≠ State.reset.freq ∧
    (after (.cfgsq true 1#32) State.reset).width ≠ State.reset.width ∧
    (after (.setph 1#32) State.reset).phase ≠ State.reset.phase ∧
    (after (.genSaw .internal) afterWrapSaw).wptr ≠ afterWrapSaw.wptr ∧
    (after (.rdreg 9) State.reset).fault ≠ State.reset.fault := by decide

/-- StepKeepsInv and StepTableIsReadOnly: a step from a state of the invariant. -/
theorem witness_StepKeepsInv :
    Inv (atEdge (offerEdge 0#32 0#32) afterWrapSaw) ∧
    step (atEdge (offerEdge 0#32 0#32) afterWrapSaw) = .next (answered false 0#32 afterWrapSaw) :=
  ⟨⟨by decide, by decide, by decide, by decide, by decide, by decide, by decide⟩, rfl⟩

end Sys2Proof.Tests
end

/-! ## O27: a GEN that may run answers the tap-per-sample output

Three parts. The ring has room for every GEN (R113), so a GEN that may run emits; no cell comes near the s32 bound
(R112), so insertion adds its taps exactly; so the emitted sample is the naive value plus what is owed (R37) plus tap
0 of the new events, saturated once (R108, R114). -/

section
namespace Sys2Proof.Machine

/-! ### What retirement and insertion leave unchanged -/

@[simp] theorem retire_wptr (s : State) : (retire s).wptr = s.wptr := by rw [retire_frame]
@[simp] theorem retire_cells (s : State) : (retire s).cells = s.cells := by rw [retire_frame]
@[simp] theorem retire_width (s : State) : (retire s).width = s.width := by rw [retire_frame]
@[simp] theorem retire_pol (s : State) : (retire s).pol = s.pol := by rw [retire_frame]
@[simp] theorem retire_table (s : State) : (retire s).table = s.table := by rw [retire_frame]
@[simp] theorem retire_pending (s : State) : (retire s).pending = s.pending := by rw [retire_frame]

@[simp] theorem insertAll_wptr (evs : List StepEvent) (s : State) : (insertAll evs s).wptr = s.wptr := by
  rw [insertAll_frame]
@[simp] theorem insertAll_width (evs : List StepEvent) (s : State) : (insertAll evs s).width = s.width := by
  rw [insertAll_frame]
@[simp] theorem insertAll_pol (evs : List StepEvent) (s : State) : (insertAll evs s).pol = s.pol := by
  rw [insertAll_frame]
@[simp] theorem insertAll_pending (evs : List StepEvent) (s : State) : (insertAll evs s).pending = s.pending := by
  rw [insertAll_frame]

@[simp] theorem dueCell_retire (s : State) (j : Nat) : dueCell (retire s) j = dueCell s j := by
  simp [dueCell]

/-! ### The ring has room for every GEN (R113) -/

/-- Two events further on, AGE is lower: so 2 * i events further on it is lower by i. -/
theorem age_add_le_age_of_two_per_sample {s : State} (h : TwoPerSample s) (n i : Nat)
    (hi : n + 2 * i < s.count.toNat) :
    (liveSlot s (n + 2 * i)).age.toNat + i ≤ (liveSlot s n).age.toNat := by
  induction i with
  | zero => simp
  | succ i ih =>
    have hprev := ih (by omega)
    have hstep := h (n + 2 * i) (by omega)
    rw [show n + 2 * (i + 1) = n + 2 * i + 2 by omega]
    omega

/-- After retirement the live events have AGE 1..15, at most two of each: no more than 2 * (W - 1). -/
theorem retire_count_le {s : State} (h : Inv s) : (retire s).count.toNat ≤ 30 := by
  obtain ⟨n, hn, he, -, hstop⟩ := retire_spec s
  obtain ⟨hage, -⟩ := h.ages
  have hcount : (retire s).count.toNat = s.count.toNat - n := by
    rw [he]
    exact Nat.mod_eq_of_lt (Nat.lt_of_le_of_lt (Nat.sub_le ..) s.count.isLt)
  by_contra hmany
  have hold : (liveSlot s n).age.toNat ≠ 16 := hstop (by omega)
  have hmax := (hage n (by omega)).2
  have hmin := (hage (n + 2 * 15) (by omega)).1
  have hspread := age_add_le_age_of_two_per_sample h.two n 15 (by omega)
  omega

theorem eventsOf_length_le_two (fam : Family) (src : PhaseSource) (s : State) :
    (eventsOf fam src s).length ≤ 2 :=
  detect_length_le_two ..

theorem overfull_retire {s : State} (h : Inv s) (fam : Family) (src : PhaseSource) :
    overfull (eventsOf fam src s).length (retire s) = false := by
  have hroom := retire_count_le h
  have hnew := eventsOf_length_le_two fam src s
  simp only [overfull, decide_eq_false_iff_not]
  omega

/-- In a state of the invariant, a GEN that may run takes none of the faults: it emits a sample (R130). -/
theorem genCommand_of_genReady {fam : Family} {src : PhaseSource} {s : State} (h : Inv s)
    (hready : GenReady fam src s) :
    genCommand fam src s = emitSample fam (newPhase src s) (insertAll (eventsOf fam src s) (retire s)) := by
  obtain ⟨hfault, hmode, hrange⟩ := hready
  rw [← outOfRange_eq_false_iff] at hrange
  rcases genCommand_cases fam src s with ⟨hf, -⟩ | ⟨-, hnone, -⟩ | ⟨-, -, hother, -⟩ | ⟨-, -, hout, -⟩ |
    ⟨-, -, -, hfull, -⟩ | ⟨-, -, -, -, hemit⟩
  · simp [hfault] at hf
  · exact absurd (hmode.symm.trans hnone) (familyMode_ne_none fam)
  · exact absurd hmode hother
  · simp [hrange] at hout
  · simp [overfull_retire h fam src] at hfull
  · exact hemit

/-! ### No cell comes near the s32 bound (R112) -/

theorem tapOwed_bounds (t : StepTable) (j : Nat) (e : Slot) : -65536 ≤ tapOwed t j e ∧ tapOwed t j e ≤ 65536 := by
  unfold tapOwed
  split
  · exact contrib_bounds ..
  · decide

theorem owed_bounds (s : State) (j : Nat) :
    -65536 * (s.count.toNat : Int) ≤ owed s j ∧ owed s j ≤ 65536 * (s.count.toNat : Int) := by
  have hlow := List.card_nsmul_le_sum ((liveSlots s).map (tapOwed s.table j)) (-65536)
    (by simpa using fun e _ => (tapOwed_bounds s.table j e).1)
  have hhigh := List.sum_le_card_nsmul ((liveSlots s).map (tapOwed s.table j)) 65536
    (by simpa using fun e _ => (tapOwed_bounds s.table j e).2)
  simp only [List.length_map, liveSlots, List.length_range, nsmul_eq_mul] at hlow hhigh
  simp only [owed, liveSlots]
  omega

theorem dueCell_bounds {s : State} (h : Inv s) {j : Nat} (hj : j < 16) :
    -2097152 ≤ dueCell s j ∧ dueCell s j ≤ 2097152 := by
  have hcount : s.count.toNat ≤ 32 := h.ring.1
  have howed := owed_bounds s j
  rw [h.cells j hj]
  omega

@[simp] theorem tapSum_nil (t : StepTable) (k : Nat) : tapSum t k [] = 0 := rfl

@[simp] theorem tapSum_cons (t : StepTable) (k : Nat) (e : StepEvent) (es : List StepEvent) :
    tapSum t k (e :: es) = contrib t e.frac k e.rising + tapSum t k es := by
  simp [tapSum]

/-- With room below the s32 bound for every event of the list, insertion adds their taps exactly. -/
theorem dueCell_insertAll_exact (evs : List StepEvent) (s : State) {k : Nat} (hk : k < 16)
    (hlow : -2147483648 + 65536 * (evs.length : Int) ≤ dueCell s k)
    (hhigh : dueCell s k ≤ 2147483647 - 65536 * (evs.length : Int)) :
    dueCell (insertAll evs s) k = dueCell s k + tapSum s.table k evs := by
  induction evs generalizing s with
  | nil => simp
  | cons e es ih =>
    rw [List.length_cons, Nat.cast_succ] at hlow hhigh
    have htap := contrib_bounds s.table e.frac k e.rising
    have hone := dueCell_insertEvent_exact s e hk (by omega) (by omega)
    rw [insertAll_cons, ih (insertEvent s e) (by omega) (by omega), hone, insertEvent_table, tapSum_cons]
    ring

/-- The window a GEN emits from: what was due, and the new events' taps (R107). -/
theorem dueCell_insertAll_retire {s : State} (h : Inv s) {evs : List StepEvent} (hevs : evs.length ≤ 2) {k : Nat}
    (hk : k < 16) :
    dueCell (insertAll evs (retire s)) k = dueCell s k + tapSum s.table k evs := by
  have hdue : -2097152 ≤ dueCell (retire s) k ∧ dueCell (retire s) k ≤ 2097152 := by
    simpa using dueCell_bounds h hk
  rw [dueCell_insertAll_exact evs (retire s) hk (by omega) (by omega), dueCell_retire, retire_table]

/-! ### The emitted sample (R108) -/

/-- The naive value reads nothing of the state but WIDTH and POL. -/
theorem naive_congr (fam : Family) {s t : State} (p1 : Word) (hwidth : t.width = s.width) (hpol : t.pol = s.pol) :
    naive fam t p1 = naive fam s p1 := by
  cases fam <;> simp [naive, hwidth, hpol]

theorem outputSample_eq_sat16 (fam : Family) (p1 : Word) (s : State) :
    outputSample fam p1 s = sat16 (naive fam s p1 + dueCell s 0) := by
  simp [outputSample, dueCell, wrap, cellAt_mod]

/-- What R114 puts under the saturation of a GEN: the naive value, the tap each live event owes this sample, and
tap 0 of each new event. -/
def tapPerSampleValue (fam : Family) (src : PhaseSource) (s : State) : Int :=
  naive fam s (newPhase src s) + owed s 0 + tapSum s.table 0 (eventsOf fam src s)

/-- The cell scheme and the tap-per-sample scheme give one output (R37, R114). -/
theorem outputSample_eq_sat16_tapPerSampleValue {s : State} (h : Inv s) (fam : Family) (src : PhaseSource) :
    outputSample fam (newPhase src s) (insertAll (eventsOf fam src s) (retire s)) =
      sat16 (tapPerSampleValue fam src s) := by
  have hnaive : naive fam (insertAll (eventsOf fam src s) (retire s)) (newPhase src s) = naive fam s (newPhase src s) :=
    naive_congr fam _ (by simp) (by simp)
  rw [outputSample_eq_sat16, hnaive, dueCell_insertAll_retire h (eventsOf_length_le_two fam src s) (by decide),
    h.cells 0 (by decide), tapPerSampleValue, add_assoc]

/-- `sat16` clips at both ends and never wraps (R11). -/
theorem sat16_clips (x : Int) :
    (x < -32768 → sat16 x = -32768) ∧ (-32768 ≤ x → x ≤ 32767 → sat16 x = x) ∧ (32767 < x → sat16 x = 32767) := by
  unfold sat16
  omega

/-! ### The state a GEN answers (R111, R130) -/

theorem genCommand_phase {fam : Family} {src : PhaseSource} {s : State} (h : Inv s) (hready : GenReady fam src s) :
    (genCommand fam src s).phase = newPhase src s := by
  rw [genCommand_of_genReady h hready, emitSample_eq]

theorem genCommand_wptr {fam : Family} {src : PhaseSource} {s : State} (h : Inv s) (hready : GenReady fam src s) :
    (genCommand fam src s).wptr.toNat = wrap 16 s.wptr.toNat 1 := by
  rw [genCommand_of_genReady h hready, emitSample_eq]
  simp only [insertAll_wptr, retire_wptr, wrap16_toNat]

theorem genCommand_pending {fam : Family} {src : PhaseSource} {s : State} (h : Inv s) (hready : GenReady fam src s) :
    (genCommand fam src s).pending = s.pending ++ [⟨false, enc32 (sat16 (tapPerSampleValue fam src s))⟩] := by
  rw [genCommand_of_genReady h hready, emitSample_eq]
  simp only [insertAll_pending, retire_pending, outputSample_eq_sat16_tapPerSampleValue h]

end Sys2Proof.Machine
end

section
open Sys2Proof Sys2Proof.Machine

/-- Settles O27: the state `genCommand` answers, field by field; the sample is `sat16` of the tap-per-sample value. -/
theorem genAnswersTheTapPerSampleOutput : Obligations.GenAnswersTheTapPerSampleOutput := by
  unfold Obligations.GenAnswersTheTapPerSampleOutput
  intro fam src s hinv hready
  have hphase := genCommand_phase hinv hready
  obtain ⟨hbelow, hwithin, habove⟩ := sat16_clips (tapPerSampleValue fam src s)
  refine ⟨genCommand fam src s, tapPerSampleValue fam src s, sat16 (tapPerSampleValue fam src s),
    exec_genOf fam src s, ?_, genCommand_wptr hinv hready, ?_, hbelow, hwithin, habove, genCommand_pending hinv hready⟩
  · rw [hphase]
    cases src <;> rfl
  · rw [hphase, tapPerSampleValue]

end

/-! ## The state statements: O45, O43, O42, O30, O46 and O44

One lemma says what the live slots are after a GEN that produces a sample (`liveSlots_sampled`): those of AGE 16 leave
at the old end, the others grow one older, and the new events stand at the new end with AGE 1. The invariant (R36, R37)
and the blindness to stale slots (R33) both follow from it; what a GEN keeps is its frame (R35). -/

section
namespace Sys2Proof.Machine

/-! ### The live slots as a list (R33) -/

@[simp] theorem liveSlots_length (s : State) : (liveSlots s).length = s.count.toNat := by
  simp [liveSlots]

theorem liveSlots_getElem? {s : State} {j : Nat} (hj : j < s.count.toNat) :
    (liveSlots s)[j]? = some (liveSlot s j) := by
  simp [liveSlots, hj]

theorem exists_liveSlot_of_mem {s : State} {e : Slot} (he : e ∈ liveSlots s) :
    ∃ j < s.count.toNat, liveSlot s j = e := by
  simpa [liveSlots] using he

theorem liveSlots_eq_iff {s t : State} (hcount : t.count = s.count) :
    liveSlots s = liveSlots t ↔ ∀ j < s.count.toNat, liveSlot s j = liveSlot t j := by
  simp [liveSlots, hcount]

/-! ### Retirement drops the oldest events (R105) -/

/-- An event that has used all its taps, AGE = W. -/
def agedOut (e : Slot) : Bool := decide (e.age.toNat = 16)

/-- The retired events are the longest run of used-up ones at the old end of the ring. -/
theorem retire_drops (s : State) :
    ∃ n ≤ s.count.toNat,
      retire s = { s with head := BitVec.ofNat 5 (wrap 32 s.head.toNat n), count := BitVec.ofNat 6 (s.count.toNat - n) } ∧
      (liveSlots s).takeWhile agedOut = (liveSlots s).take n ∧
      (liveSlots s).dropWhile agedOut = (liveSlots s).drop n ∧
      (n < s.count.toNat → (liveSlot s n).age.toNat ≠ 16) := by
  obtain ⟨n, hn, he, hold, hstop⟩ := retire_spec s
  have hused : ∀ e ∈ (liveSlots s).take n, agedOut e = true := by
    intro e hmem
    obtain ⟨j, hj, rfl⟩ := List.mem_take_iff_getElem.mp hmem
    have hage := hold j (by omega)
    simpa [agedOut, liveSlots] using hage
  have hrest : (liveSlots s).drop n = [] ∨ ∃ e es, (liveSlots s).drop n = e :: es ∧ agedOut e = false := by
    by_cases hlt : n < s.count.toNat
    · refine .inr ⟨liveSlot s n, (liveSlots s).drop (n + 1), ?_, by simpa [agedOut] using hstop hlt⟩
      rw [List.drop_eq_getElem_cons (by simpa using hlt)]
      simp [liveSlots]
    · exact .inl (by simp; omega)
  have hsplit := List.take_append_drop n (liveSlots s)
  refine ⟨n, hn, he, ?_, ?_, hstop⟩
  · conv_lhs => rw [← hsplit, List.takeWhile_append_of_pos hused]
    rcases hrest with hnil | ⟨e, es, hcons, hfresh⟩
    · simp [hnil]
    · simp [hcons, hfresh]
  · conv_lhs => rw [← hsplit, List.dropWhile_append_of_pos hused]
    rcases hrest with hnil | ⟨e, es, hcons, hfresh⟩
    · simp [hnil]
    · simp [hcons, hfresh]

theorem liveSlots_retire (s : State) : liveSlots (retire s) = (liveSlots s).dropWhile agedOut := by
  obtain ⟨n, hn, he, -, hdrop, -⟩ := retire_drops s
  have hcount : (s.count.toNat - n) % 64 = s.count.toNat - n := Nat.mod_eq_of_lt (by omega)
  rw [hdrop, he]
  refine List.ext_getElem (by simp [hcount]) fun j _ _ => ?_
  simp [liveSlots, liveSlot, wrap, Nat.add_assoc]

/-- HEAD and COUNT after retirement read nothing of the slots but the live ones. -/
theorem retire_eq (s : State) :
    retire s = { s with
      head := BitVec.ofNat 5 (wrap 32 s.head.toNat ((liveSlots s).takeWhile agedOut).length)
      count := BitVec.ofNat 6 ((liveSlots s).dropWhile agedOut).length } := by
  obtain ⟨n, hn, he, htake, hdrop, -⟩ := retire_drops s
  rw [htake, hdrop, he]
  simp [Nat.min_eq_left hn]

theorem ringOk_retire {s : State} (h : RingOk s) : RingOk (retire s) := by
  obtain ⟨hcount, htail⟩ := h
  obtain ⟨n, hn, he, -⟩ := retire_drops s
  have hleft : (BitVec.ofNat 6 (s.count.toNat - n)).toNat = s.count.toNat - n := Nat.mod_eq_of_lt (by omega)
  rw [he]
  refine ⟨by simp only [hleft]; omega, ?_⟩
  simp only [hleft, wrap32_toNat, wrap_wrap, htail, show n + (s.count.toNat - n) = s.count.toNat by omega]

/-! ### Insertion adds events at the new end (R107) -/

/-- The slot an insertion writes: the event with AGE 0. -/
def newSlot (e : StepEvent) : Slot := ⟨e.frac, e.rising, 0#5⟩

theorem insertEvent_count_toNat {s : State} (e : StepEvent) (hroom : s.count.toNat < 32) :
    (insertEvent s e).count.toNat = s.count.toNat + 1 := by
  rw [insertEvent_count]
  exact Nat.mod_eq_of_lt (by omega)

theorem ringOk_insertEvent {s : State} (e : StepEvent) (h : RingOk s) (hroom : s.count.toNat < 32) :
    RingOk (insertEvent s e) := by
  refine ⟨by rw [insertEvent_count_toNat e hroom]; omega, ?_⟩
  rw [insertEvent_tail, wrap32_toNat, insertEvent_head, insertEvent_count_toNat e hroom, h.2, wrap_wrap]

theorem liveSlots_insertEvent {s : State} (e : StepEvent) (h : RingOk s) (hroom : s.count.toNat < 32) :
    liveSlots (insertEvent s e) = liveSlots s ++ [newSlot e] := by
  obtain ⟨-, htail⟩ := h
  have hslot : ∀ j, liveSlot (insertEvent s e) j =
      if wrap 32 s.head.toNat s.count.toNat = wrap 32 s.head.toNat j then newSlot e else liveSlot s j := by
    intro j
    rw [liveSlot, insertEvent_slotAt, insertEvent_head, wrap_mod, htail, newSlot, liveSlot]
  have hold : ∀ j ∈ List.range s.count.toNat, liveSlot (insertEvent s e) j = liveSlot s j := by
    intro j hj
    rw [List.mem_range] at hj
    rw [hslot, if_neg fun heq => by have := wrap_inj hroom (by omega) heq; omega]
  rw [liveSlots, insertEvent_count_toNat e hroom, List.range_succ, List.map_append, List.map_congr_left hold,
    List.map_singleton, hslot, if_pos rfl, liveSlots]

theorem ringOk_insertAll (evs : List StepEvent) {s : State} (h : RingOk s) (hroom : s.count.toNat + evs.length ≤ 32) :
    RingOk (insertAll evs s) := by
  induction evs generalizing s with
  | nil => exact h
  | cons e es ih =>
    rw [List.length_cons] at hroom
    rw [insertAll_cons]
    exact ih (ringOk_insertEvent e h (by omega)) (by rw [insertEvent_count_toNat e (by omega)]; omega)

theorem liveSlots_insertAll (evs : List StepEvent) {s : State} (h : RingOk s)
    (hroom : s.count.toNat + evs.length ≤ 32) :
    liveSlots (insertAll evs s) = liveSlots s ++ evs.map newSlot := by
  induction evs generalizing s with
  | nil => simp
  | cons e es ih =>
    rw [List.length_cons] at hroom
    have hone := insertEvent_count_toNat e (s := s) (by omega)
    rw [insertAll_cons, ih (ringOk_insertEvent e h (by omega)) (by omega), liveSlots_insertEvent e h (by omega)]
    simp

/-- Insertion writes no slot but the ones from TAIL on. -/
theorem slotAt_insertAll_of_ne (evs : List StepEvent) (s : State) {i : Nat} (hi : i < 32)
    (hout : ∀ k < evs.length, wrap 32 s.tail.toNat k ≠ i) :
    slotAt (insertAll evs s).slots i = slotAt s.slots i := by
  induction evs generalizing s with
  | nil => simp
  | cons e es ih =>
    have hnot : s.tail.toNat ≠ i := by
      simpa [wrap, Nat.mod_eq_of_lt (show s.tail.toNat < 32 from s.tail.isLt)] using hout 0 (by simp)
    rw [insertAll_cons, ih, insertEvent_slotAt, Nat.mod_eq_of_lt hi, if_neg hnot]
    intro k hk
    rw [insertEvent_tail, wrap32_toNat, wrap_wrap, Nat.add_comm]
    exact hout (k + 1) (by simpa using hk)

/-! ### Aging (R110) -/

/-- A slot one sample later. -/
def older (e : Slot) : Slot := { e with age := BitVec.ofNat 5 (e.age.toNat + 1) }

@[simp] theorem older_frac (e : Slot) : (older e).frac = e.frac := rfl
@[simp] theorem older_rising (e : Slot) : (older e).rising = e.rising := rfl

theorem older_age {e : Slot} (hage : e.age.toNat ≤ 30) : (older e).age.toNat = e.age.toNat + 1 :=
  Nat.mod_eq_of_lt (by omega)

theorem liveSlots_ageAll {s : State} (hcount : s.count.toNat ≤ 32) :
    liveSlots (ageAll s) = (liveSlots s).map older := by
  rw [liveSlots, liveSlots, List.map_map, ageAll_count]
  refine List.map_congr_left fun j hj => ?_
  rw [List.mem_range] at hj
  rw [liveSlot_ageAll s hcount (by omega), if_pos hj, Function.comp_apply, older]

/-- Aging writes no slot outside the live range. -/
theorem slotAt_ageAll_of_ne {s : State} (hcount : s.count.toNat ≤ 32) {i : Nat} (hi : i < 32)
    (hout : ∀ j < s.count.toNat, wrap 32 s.head.toNat j ≠ i) :
    slotAt (ageAll s).slots i = slotAt s.slots i := by
  obtain ⟨l, hl, rfl⟩ := exists_wrap_eq s.head.toNat hi
  rw [ageAll_slots, slotAt_ageSlots _ _ hcount hl, if_neg fun hlt => hout l hlt rfl]

/-! ### A GEN that produces a sample (R130) -/

/-- The end of a GEN that produces a sample, from its new phase and its events. -/
def sampled (fam : Family) (p1 : Word) (evs : List StepEvent) (s : State) : State :=
  emitSample fam p1 (insertAll evs (retire s))

/-- A GEN is refused, or faults, or produces its sample with room for its events. -/
theorem genCommand_ends (fam : Family) (src : PhaseSource) (s : State) :
    (s.fault = true ∧ genCommand fam src s = refuse s) ∨
    (s.fault = false ∧ ∃ c, genCommand fam src s = faultedBy c s) ∨
    (s.fault = false ∧ s.mode = familyMode fam ∧ (retire s).count.toNat + (eventsOf fam src s).length ≤ 32 ∧
      genCommand fam src s = sampled fam (newPhase src s) (eventsOf fam src s) s) := by
  rcases genCommand_cases fam src s with ⟨hf, he⟩ | ⟨hf, -, he⟩ | ⟨hf, -, -, he⟩ | ⟨hf, -, -, he⟩ | ⟨hf, -, -, -, he⟩ |
    ⟨hf, hm, -, hroom, he⟩
  · exact .inl ⟨hf, he⟩
  · exact .inr (.inl ⟨hf, _, he⟩)
  · exact .inr (.inl ⟨hf, _, he⟩)
  · exact .inr (.inl ⟨hf, _, he⟩)
  · exact .inr (.inl ⟨hf, _, he⟩)
  · exact .inr (.inr ⟨hf, hm, by simpa [overfull] using hroom, he⟩)

/-- What the sample's GEN writes: PHASE, the cells and WPTR, the ring, and its response (R35). -/
theorem sampled_frame (fam : Family) (p1 : Word) (evs : List StepEvent) (s : State) :
    sampled fam p1 evs s = { s with
      phase := p1
      wptr := BitVec.ofNat 4 (wrap 16 s.wptr.toNat 1)
      cells := (sampled fam p1 evs s).cells
      slots := (sampled fam p1 evs s).slots
      head := (retire s).head
      tail := (insertAll evs (retire s)).tail
      count := (insertAll evs (retire s)).count
      pending := s.pending ++ [⟨false, enc32 (outputSample fam p1 (insertAll evs (retire s)))⟩] } := by
  rw [sampled, emitSample_eq, insertAll_frame, retire_frame]

section
variable {s : State} {evs : List StepEvent} (hring : RingOk s) (hroom : (retire s).count.toNat + evs.length ≤ 32)
include hring hroom

theorem ringOk_sampled (fam : Family) (p1 : Word) : RingOk (sampled fam p1 evs s) := by
  rw [sampled, emitSample_eq]
  exact ringOk_insertAll evs (ringOk_retire hring) hroom

/-- The live slots after a sample: the used-up ones gone, the others one older, the new ones at AGE 1. -/
theorem liveSlots_sampled (fam : Family) (p1 : Word) :
    liveSlots (sampled fam p1 evs s) =
      ((liveSlots s).dropWhile agedOut).map older ++ evs.map fun e => ⟨e.frac, e.rising, 1#5⟩ := by
  have hcount := insertAll_count evs (retire s) hroom
  calc liveSlots (sampled fam p1 evs s)
      = liveSlots (ageAll (insertAll evs (retire s))) := by rw [sampled, emitSample_eq]; rfl
    _ = (liveSlots (insertAll evs (retire s))).map older := liveSlots_ageAll (by omega)
    _ = (liveSlots (retire s) ++ evs.map newSlot).map older := by
        rw [liveSlots_insertAll evs (ringOk_retire hring) hroom]
    _ = _ := by simp [liveSlots_retire, older, newSlot]

/-- A slot outside the new live range is neither inserted nor aged (R31). -/
theorem slotAt_sampled_of_ne (fam : Family) (p1 : Word) {i : Nat} (hi : i < 32)
    (hout : ∀ j < (sampled fam p1 evs s).count.toNat, wrap 32 (sampled fam p1 evs s).head.toNat j ≠ i) :
    slotAt (sampled fam p1 evs s).slots i = slotAt s.slots i := by
  have hcount := insertAll_count evs (retire s) hroom
  have hhead : (insertAll evs (retire s)).head = (retire s).head := by rw [insertAll_frame]
  obtain ⟨-, htail⟩ := ringOk_retire hring
  have hslots : (sampled fam p1 evs s).slots = (ageAll (insertAll evs (retire s))).slots := by
    rw [sampled, emitSample_eq]
  rw [sampled_frame] at hout
  rw [hslots, slotAt_ageAll_of_ne (by omega) hi (by rw [hhead]; exact hout), slotAt_insertAll_of_ne evs _ hi,
    retire_frame]
  intro k hk
  rw [htail, wrap_wrap]
  exact hout _ (by rw [hcount]; omega)

end

/-! ### The invariant where the ring is empty (R36, R37) -/

/-- An empty ring over cells of 0 meets the ring part of the invariant. -/
theorem inv_of_empty {s : State} (hcount : s.count = 0#6) (htail : s.tail = s.head)
    (hcells : s.cells = Vector.replicate 16 0#32) (hfreq : FreqOk s) (hstatus : StatusOk s) : Inv s where
  ring := by
    refine ⟨by simp [hcount], ?_⟩
    simp [hcount, htail, wrap, Nat.mod_eq_of_lt (show s.head.toNat < 32 from s.head.isLt)]
  ages := by simp [AgesOk, hcount]
  two := by simp [TwoPerSample, hcount]
  freq := hfreq
  mode := by simp [ModeOk, hcount, hcells]
  status := hstatus
  cells := by simp [CellsOk, dueCell, owed, liveSlots, hcount, hcells]

theorem inv_applyReset (s : State) : Inv s.applyReset :=
  inv_of_empty rfl rfl rfl (Nat.zero_le _) rfl

theorem clampFreq_le (f : Word) : (clampFreq f).toNat ≤ Config.freqMax.toNat := by
  simp only [clampFreq, clampFlag, decide_eq_true_eq]
  split <;> omega

theorem inv_initDatapath (fam : Family) (f : Word) {s : State} (h : Inv s) : Inv (initDatapath fam f s) :=
  inv_of_empty rfl rfl rfl (clampFreq_le f) h.status

/-! ### The invariant under the writes that miss the ring -/

/-- PHASE, WIDTH, POL, CLAMP and the ports are no part of the invariant. -/
theorem Inv.frame {s : State} (h : Inv s) (phase width : Word) (pol clamp : Bool) (inputs : List PortEdge)
    (pending : List Response) :
    Inv { s with phase := phase, width := width, pol := pol, clamp := clamp, inputs := inputs, pending := pending } :=
  ⟨h.ring, h.ages, h.two, h.freq, h.mode, h.status, h.cells⟩

theorem Inv.respond {s : State} (h : Inv s) (err : Bool) (data : Word) : Inv (respond err data s) :=
  h.frame s.phase s.width s.pol s.clamp s.inputs _

theorem Inv.faultedBy {s : State} (h : Inv s) (c : Cause) : Inv (faultedBy c s) :=
  ⟨h.ring, h.ages, h.two, h.freq, h.mode, rfl, h.cells⟩

theorem Inv.raiseFault {s : State} (h : Inv s) (c : Cause) : Inv (raiseFault c s) := by
  rcases raiseFault_cases c s with ⟨-, he⟩ | ⟨-, he⟩
  · rw [he]; exact h.faultedBy c
  · rw [he]; exact h.respond true 0#32

theorem Inv.deliver {s : State} (h : Inv s) (e : PortEdge) (rest : List PortEdge) :
    Inv (deliver e { s with inputs := rest }) := by
  unfold Machine.deliver
  split
  · exact h.frame s.phase s.width s.pol s.clamp rest _
  · exact h.frame s.phase s.width s.pol s.clamp rest s.pending

/-! ### A sample keeps the ages in order (R36) -/

theorem age_le_of_le {s : State} (h : AgesOk s) {i j : Nat} (hij : i ≤ j) (hj : j < s.count.toNat) :
    (liveSlot s j).age.toNat ≤ (liveSlot s i).age.toNat := by
  induction j, hij using Nat.le_induction with
  | base => exact Nat.le_refl _
  | succ j _ ih => exact (h.2 j (by omega)).trans (ih (by omega))

section
variable {s : State} {evs : List StepEvent} (h : Inv s) (hevs : evs.length ≤ 2)
include h hevs

theorem room_of_inv : (retire s).count.toNat + evs.length ≤ 32 := by
  have := retire_count_le h
  omega

/-- The ages after a sample: n events are gone, each that stays had AGE <= 15 and has one more, and the new have 1. -/
theorem ages_sampled (fam : Family) (p1 : Word) :
    ∃ n ≤ s.count.toNat, (sampled fam p1 evs s).count.toNat = s.count.toNat - n + evs.length ∧
      (∀ j < s.count.toNat - n, (liveSlot s (n + j)).age.toNat ≤ 15 ∧
        (liveSlot (sampled fam p1 evs s) j).age.toNat = (liveSlot s (n + j)).age.toNat + 1) ∧
      (∀ j < s.count.toNat - n + evs.length, s.count.toNat - n ≤ j →
        (liveSlot (sampled fam p1 evs s) j).age.toNat = 1) := by
  obtain ⟨n, hn, he, -, hdrop, hstop⟩ := retire_drops s
  have hroom := room_of_inv h hevs
  have hleft : (retire s).count.toNat = s.count.toNat - n := by
    rw [he]
    exact Nat.mod_eq_of_lt (by omega)
  have hcount : (sampled fam p1 evs s).count.toNat = s.count.toNat - n + evs.length := by
    rw [sampled_frame]
    simpa only [hleft] using insertAll_count evs (retire s) hroom
  have hlive : ∀ j < s.count.toNat - n + evs.length,
      some (liveSlot (sampled fam p1 evs s) j) =
        (((liveSlots s).drop n).map older ++ evs.map fun e => ⟨e.frac, e.rising, 1#5⟩)[j]? := by
    intro j hj
    rw [← hdrop, ← liveSlots_sampled h.ring hroom fam p1, liveSlots_getElem? (by omega)]
  refine ⟨n, hn, hcount, fun j hj => ?_, fun j hj hnew => ?_⟩
  · have hyoung : (liveSlot s (n + j)).age.toNat ≤ 15 := by
      have hmax := (h.ages.1 n (by omega)).2
      have hfirst := hstop (by omega)
      have hlater := age_le_of_le h.ages (Nat.le_add_right n j) (by omega)
      omega
    have hj' := hlive j (by omega)
    rw [List.getElem?_append_left (by simpa using hj), List.getElem?_map, List.getElem?_drop,
      liveSlots_getElem? (by omega), Option.map_some, Option.some.injEq] at hj'
    rw [hj']
    exact ⟨hyoung, older_age (by omega)⟩
  · have hj' := hlive j hj
    rw [List.getElem?_append_right (by simpa using hnew), List.getElem?_map, eq_comm, Option.map_eq_some_iff] at hj'
    obtain ⟨e, -, hslot⟩ := hj'
    rw [← hslot]
    rfl

theorem agesOk_sampled (fam : Family) (p1 : Word) : AgesOk (sampled fam p1 evs s) := by
  obtain ⟨n, hn, hcount, hold, hnew⟩ := ages_sampled h hevs fam p1
  constructor
  · intro j hj
    by_cases hlt : j < s.count.toNat - n
    · have := hold j hlt
      omega
    · have := hnew j (by omega) (by omega)
      omega
  · intro j hj
    by_cases hlt : j + 1 < s.count.toNat - n
    · have horder := h.ages.2 (n + j) (by omega)
      have hthis := hold j (by omega)
      have hnext := hold (j + 1) hlt
      rw [← Nat.add_assoc] at hnext
      omega
    · have hnext := hnew (j + 1) (by omega) (by omega)
      by_cases hlast : j < s.count.toNat - n
      · have := hold j hlast
        omega
      · have := hnew j (by omega) (by omega)
        omega

theorem twoPerSample_sampled (fam : Family) (p1 : Word) : TwoPerSample (sampled fam p1 evs s) := by
  obtain ⟨n, hn, hcount, hold, hnew⟩ := ages_sampled h hevs fam p1
  intro j hj
  have hthis := hold j (by omega)
  by_cases hlt : j + 2 < s.count.toNat - n
  · have horder := h.two (n + j) (by omega)
    have hnext := hold (j + 2) hlt
    rw [← Nat.add_assoc] at hnext
    omega
  · have hmin := (h.ages.1 (n + j) (by omega)).1
    have hnext := hnew (j + 2) (by omega) (by omega)
    omega

end

/-! ### A sample keeps the cells exact (R37) -/

/-- One sample later, an event owes the sample j ahead what it owed the sample j + 1 ahead. -/
theorem tapOwed_older (t : StepTable) (j : Nat) {e : Slot} (hage : e.age.toNat ≤ 16) :
    tapOwed t j (older e) = tapOwed t (j + 1) e := by
  have hold := older_age (e := e) (by omega)
  simp only [tapOwed, hold, older_frac, older_rising, Nat.add_assoc, Nat.add_comm 1 j]

theorem tapOwed_of_agedOut (t : StepTable) (j : Nat) {e : Slot} (hused : agedOut e = true) : tapOwed t j e = 0 := by
  rw [agedOut, decide_eq_true_eq] at hused
  rw [tapOwed, if_neg (by omega)]

/-- A used-up event owes nothing, so retirement changes no sum. -/
theorem sum_tapOwed_dropWhile (t : StepTable) (j : Nat) (l : List Slot) :
    ((l.dropWhile agedOut).map (tapOwed t j)).sum = (l.map (tapOwed t j)).sum := by
  induction l with
  | nil => rfl
  | cons e es ih =>
    cases hused : agedOut e with
    | true => simp [hused, ih, tapOwed_of_agedOut t j hused]
    | false => simp [hused]

/-- The new events owe the sample j ahead their tap j + 1, as long as there is one. -/
theorem sum_tapOwed_new (t : StepTable) (j : Nat) (evs : List StepEvent) :
    ((evs.map fun e => (⟨e.frac, e.rising, 1#5⟩ : Slot)).map (tapOwed t j)).sum =
      if j < 15 then tapSum t (j + 1) evs else 0 := by
  have hone : ∀ e : StepEvent, tapOwed t j ⟨e.frac, e.rising, 1#5⟩ =
      if j < 15 then contrib t e.frac (j + 1) e.rising else 0 := by
    intro e
    simp only [tapOwed, show (1#5).toNat = 1 from rfl, Nat.add_comm 1 j, Nat.succ_le_iff]
  induction evs with
  | nil => simp
  | cons e es ih =>
    rw [List.map_cons, List.map_cons, List.sum_cons, ih, hone, tapSum_cons]
    split <;> rfl

theorem owed_sixteen (s : State) : owed s 16 = 0 := by
  have hzero : ∀ e ∈ liveSlots s, tapOwed s.table 16 e = 0 := fun e _ => by rw [tapOwed, if_neg (by omega)]
  rw [owed, List.map_congr_left hzero]
  simp

section
variable {s : State} {evs : List StepEvent} (h : Inv s) (hevs : evs.length ≤ 2)
include h hevs

theorem owed_sampled (fam : Family) (p1 : Word) (j : Nat) :
    owed (sampled fam p1 evs s) j = owed s (j + 1) + if j < 15 then tapSum s.table (j + 1) evs else 0 := by
  have hage : ∀ e ∈ (liveSlots s).dropWhile agedOut, (tapOwed s.table j ∘ older) e = tapOwed s.table (j + 1) e := by
    intro e he
    obtain ⟨i, hi, rfl⟩ := exists_liveSlot_of_mem ((List.dropWhile_sublist agedOut).subset he)
    exact tapOwed_older s.table j (h.ages.1 i hi).2
  have htable : (sampled fam p1 evs s).table = s.table := by rw [sampled_frame]
  rw [owed, liveSlots_sampled h.ring (room_of_inv h hevs), htable, List.map_append, List.sum_append, sum_tapOwed_new,
    List.map_map, List.map_congr_left hage, sum_tapOwed_dropWhile, owed]

/-- The window after a sample: one sample further, with the new events' taps, and the emitted cell 0 at its end. -/
theorem dueCell_sampled (fam : Family) (p1 : Word) {j : Nat} (hj : j < 16) :
    dueCell (sampled fam p1 evs s) j = if j < 15 then dueCell s (j + 1) + tapSum s.table (j + 1) evs else 0 := by
  have hshift : dueCell (sampled fam p1 evs s) j = dueCell (clearCell (insertAll evs (retire s))) (j + 1) :=
    dueCell_advanceWindow p1 (ageAll (clearCell (insertAll evs (retire s)))) j
  rw [hshift]
  split
  · rw [dueCell_clearCell _ (by omega), if_neg (by omega), dueCell_insertAll_retire h hevs (by omega)]
  · obtain rfl : j = 15 := by omega
    have hround : ∀ u : State, dueCell u (15 + 1) = dueCell u 0 := fun u => by simp [dueCell, wrap]
    rw [hround, dueCell_clearCell _ (by decide), if_pos rfl]

theorem cellsOk_sampled (fam : Family) (p1 : Word) : CellsOk (sampled fam p1 evs s) := by
  intro j hj
  rw [dueCell_sampled h hevs fam p1 hj, owed_sampled h hevs fam p1 j]
  split
  · rw [h.cells (j + 1) (by omega)]
  · obtain rfl : j = 15 := by omega
    simp [owed_sixteen]

end

/-! ### Every command and every step keeps the invariant -/

theorem inv_genCommand (fam : Family) (src : PhaseSource) {s : State} (h : Inv s) : Inv (genCommand fam src s) := by
  rcases genCommand_ends fam src s with ⟨-, he⟩ | ⟨-, c, he⟩ | ⟨-, hmode, hroom, he⟩
  · rw [he]; exact h.respond true 0#32
  · rw [he]; exact h.faultedBy c
  · have hevs := eventsOf_length_le_two fam src s
    rw [he]
    exact {
      ring := ringOk_sampled h.ring hroom fam _
      ages := agesOk_sampled h hevs fam _
      two := twoPerSample_sampled h hevs fam _
      freq := by rw [FreqOk, sampled_frame]; exact h.freq
      mode := by
        intro hnone
        rw [sampled_frame] at hnone
        exact absurd (hmode.symm.trans hnone) (familyMode_ne_none fam)
      status := by rw [StatusOk, sampled_frame]; exact h.status
      cells := cellsOk_sampled h hevs fam _ }

theorem inv_initCommand (fam : Family) (f : Word) {s : State} (h : Inv s) : Inv (initCommand fam f s) := by
  rcases initCommand_cases fam f s with ⟨-, he⟩ | ⟨-, he⟩
  · rw [he]; exact h.respond true 0#32
  · rw [he]; exact (inv_initDatapath fam f h).respond false 0#32

theorem after_nop (s : State) : after .nop s = respond false 0#32 s := rfl

theorem after_setph (ph : Word) (s : State) :
    after (.setph ph) s = if s.fault then refuse s else respond false 0#32 { s with phase := ph } := rfl

theorem after_cfgsq (polb : Bool) (wid : Word) (s : State) :
    after (.cfgsq polb wid) s =
      if s.fault then refuse s else respond false 0#32 { s with width := wid, pol := polb } := rfl

theorem after_rdreg_of_some {reg : Nat} {s : State} {v : Word} (h : regValue reg s = some v) :
    after (.rdreg reg) s = respond false v s := by
  simp [after, exec_rdreg, h]

theorem after_rdreg_of_none {reg : Nat} {s : State} (h : regValue reg s = none) :
    after (.rdreg reg) s = raiseFault .illegal s := by
  simp [after, exec_rdreg, h]

theorem Inv.after {s : State} (h : Inv s) (i : Instr) : Inv (after i s) := by
  rcases instr_cases i with rfl | ⟨ph, rfl⟩ | ⟨polb, wid, rfl⟩ | ⟨reg, rfl⟩ | ⟨fam, f, rfl⟩ | ⟨fam, src, rfl⟩
  · exact h.respond false 0#32
  · rw [after_setph]
    split
    · exact h.respond true 0#32
    · exact (h.frame ph s.width s.pol s.clamp s.inputs s.pending).respond false 0#32
  · rw [after_cfgsq]
    split
    · exact h.respond true 0#32
    · exact (h.frame s.phase wid polb s.clamp s.inputs s.pending).respond false 0#32
  · cases hreg : regValue reg s with
    | some v => rw [after_rdreg_of_some hreg]; exact h.respond false v
    | none => rw [after_rdreg_of_none hreg]; exact h.raiseFault .illegal
  · rw [after_initOf]
    exact inv_initCommand fam f h
  · rw [after_genOf]
    exact inv_genCommand fam src h

theorem Inv.step {s t : State} (h : Inv s) (hstep : step s = .next t) : Inv t := by
  rcases step_cases hstep with ⟨-, rfl⟩ | ⟨e, rest, -, ⟨-, rfl⟩ | ⟨-, -, rfl⟩ | ⟨-, -, i, -, rfl⟩ | ⟨-, -, -, rfl⟩⟩
  · exact h
  · exact inv_applyReset _
  · exact h.deliver e rest
  · exact (h.deliver e rest).after i
  · exact (h.deliver e rest).raiseFault .illegal

/-! ### Which command writes what (R35) -/

/-- An INIT writes the frequency group, PHASE and the correction state (R35, R120). -/
theorem initCommand_keeps (fam : Family) (f : Word) (s : State) :
    (initCommand fam f s).width = s.width ∧ (initCommand fam f s).pol = s.pol ∧
    (initCommand fam f s).fault = s.fault ∧ (initCommand fam f s).cause = s.cause ∧
    (initCommand fam f s).table = s.table ∧ (initCommand fam f s).inputs = s.inputs := by
  rcases initCommand_cases fam f s with ⟨-, he⟩ | ⟨-, he⟩ <;> simp [he]

/-- A GEN, however it ends, writes PHASE, the correction state, FAULT and CAUSE (R35, R130). -/
theorem genCommand_keeps (fam : Family) (src : PhaseSource) (s : State) :
    (genCommand fam src s).freq = s.freq ∧ (genCommand fam src s).mode = s.mode ∧
    (genCommand fam src s).clamp = s.clamp ∧ (genCommand fam src s).width = s.width ∧
    (genCommand fam src s).pol = s.pol ∧ (genCommand fam src s).table = s.table ∧
    (genCommand fam src s).inputs = s.inputs := by
  rcases genCommand_ends fam src s with ⟨-, he⟩ | ⟨-, c, he⟩ | ⟨-, -, -, he⟩
  · simp [he]
  · simp [he]
  · rw [he, sampled_frame]
    simp

/-- An RDREG writes FAULT and CAUSE at most, and those by a reserved number (R153). -/
theorem after_rdreg_keeps (reg : Nat) (s : State) :
    after (.rdreg reg) s = { s with
      fault := (after (.rdreg reg) s).fault, cause := (after (.rdreg reg) s).cause
      pending := (after (.rdreg reg) s).pending } := by
  cases hreg : regValue reg s with
  | some v => rw [after_rdreg_of_some hreg]; rfl
  | none =>
    rw [after_rdreg_of_none hreg]
    rcases raiseFault_cases .illegal s with ⟨-, he⟩ | ⟨-, he⟩ <;> rw [he] <;> rfl

theorem after_setph_keeps (ph : Word) (s : State) :
    after (.setph ph) s = { s with
      phase := (after (.setph ph) s).phase, pending := (after (.setph ph) s).pending } := by
  rw [after_setph]
  split <;> rfl

theorem after_cfgsq_keeps (polb : Bool) (wid : Word) (s : State) :
    after (.cfgsq polb wid) s = { s with
      width := (after (.cfgsq polb wid) s).width, pol := (after (.cfgsq polb wid) s).pol
      pending := (after (.cfgsq polb wid) s).pending } := by
  rw [after_cfgsq]
  split <;> rfl

theorem after_table (i : Instr) (s : State) : (after i s).table = s.table := by
  rcases instr_cases i with rfl | ⟨ph, rfl⟩ | ⟨polb, wid, rfl⟩ | ⟨reg, rfl⟩ | ⟨fam, f, rfl⟩ | ⟨fam, src, rfl⟩
  · rfl
  · rw [after_setph_keeps]
  · rw [after_cfgsq_keeps]
  · rw [after_rdreg_keeps]
  · simp [initCommand_keeps]
  · simp [genCommand_keeps]

/-! ### States alike but for stale slots (R33) -/

theorem agreeOnLive_iff {s t : State} :
    AgreeOnLive s t ↔ t = { s with slots := t.slots } ∧ liveSlots s = liveSlots t := by
  constructor
  · rintro ⟨hrest, hlive⟩
    exact ⟨hrest, (liveSlots_eq_iff (by rw [hrest])).mpr hlive⟩
  · rintro ⟨hrest, hlive⟩
    exact ⟨hrest, (liveSlots_eq_iff (by rw [hrest])).mp hlive⟩

theorem AgreeOnLive.refl (s : State) : AgreeOnLive s s := ⟨rfl, fun _ _ => rfl⟩

theorem AgreeOnLive.respond {s t : State} (h : AgreeOnLive s t) (err : Bool) (data : Word) :
    AgreeOnLive (respond err data s) (respond err data t) := by
  obtain ⟨hrest, hlive⟩ := h
  exact ⟨by rw [hrest]; rfl, hlive⟩

theorem AgreeOnLive.raiseFault {s t : State} (h : AgreeOnLive s t) (c : Cause) :
    AgreeOnLive (raiseFault c s) (raiseFault c t) := by
  refine AgreeOnLive.respond ?_ true 0#32
  obtain ⟨hrest, hlive⟩ := h
  have hfault : t.fault = s.fault := by rw [hrest]
  unfold recordFault
  rw [hfault]
  split
  · exact ⟨hrest, hlive⟩
  · exact ⟨by rw [hrest], hlive⟩

/-- A command that is refused while faulted tells the two states apart no more than what it writes does (R173). -/
theorem AgreeOnLive.refusedOrWritten {s t s' t' : State} (h : AgreeOnLive s t) (hwritten : AgreeOnLive s' t') :
    AgreeOnLive (if s.fault then refuse s else Machine.respond false 0#32 s')
      (if t.fault then refuse t else Machine.respond false 0#32 t') := by
  have hfault : t.fault = s.fault := by rw [h.rest]
  rw [hfault]
  split
  · exact h.respond true 0#32
  · exact hwritten.respond false 0#32

/-- A register other than a slot reads the same whatever the slots hold (R56). -/
theorem regValue_slots {reg : Nat} (hreg : reg < 0x20 ∨ 0x40 ≤ reg) (s : State) (ss : Vector Slot 32) :
    regValue reg { s with slots := ss } = regValue reg s := by
  have hnot : ¬(0x20 ≤ reg ∧ reg < 0x40) := by omega
  simp only [regValue, if_neg hnot]
  rfl

/-- Retirement reads no slot but the live ones. -/
theorem retire_slots {s : State} {ss : Vector Slot 32} (hlive : liveSlots { s with slots := ss } = liveSlots s) :
    retire { s with slots := ss } = { retire s with slots := ss } := by
  rw [retire_eq, retire_eq s, hlive]

/-- Insertion reads no slot. -/
theorem insertAll_slots (evs : List StepEvent) (s : State) (ss : Vector Slot 32) :
    insertAll evs { s with slots := ss } =
      { insertAll evs s with slots := (insertAll evs { s with slots := ss }).slots } := by
  induction evs generalizing s ss with
  | nil => rfl
  | cons e es ih =>
    have hone : insertEvent { s with slots := ss } e =
        { insertEvent s e with slots := (insertEvent { s with slots := ss } e).slots } := by
      simp only [insertEvent]
    rw [insertAll_cons, insertAll_cons, hone, ih]

theorem sampled_slots {s : State} {ss : Vector Slot 32} (hlive : liveSlots { s with slots := ss } = liveSlots s)
    (fam : Family) (p1 : Word) (evs : List StepEvent) :
    sampled fam p1 evs { s with slots := ss } =
      { sampled fam p1 evs s with slots := (sampled fam p1 evs { s with slots := ss }).slots } := by
  have houtput : ∀ (u : State) (us : Vector Slot 32),
      outputSample fam p1 { u with slots := us } = outputSample fam p1 u := by
    intro u us
    cases fam <;> rfl
  rw [sampled, sampled, emitSample_eq, emitSample_eq, retire_slots hlive, insertAll_slots, houtput]

theorem AgreeOnLive.sampled {s t : State} (h : AgreeOnLive s t) (hring : RingOk s) {evs : List StepEvent}
    (hroom : (retire s).count.toNat + evs.length ≤ 32) (fam : Family) (p1 : Word) :
    AgreeOnLive (sampled fam p1 evs s) (sampled fam p1 evs t) := by
  obtain ⟨hrest, hlive⟩ := agreeOnLive_iff.mp h
  rw [hrest] at hlive ⊢
  have hretire : (retire { s with slots := t.slots }).count = (retire s).count := by rw [retire_slots hlive.symm]
  have hring' : RingOk { s with slots := t.slots } := hring
  refine agreeOnLive_iff.mpr ⟨sampled_slots hlive.symm fam p1 evs, ?_⟩
  rw [liveSlots_sampled hring hroom, liveSlots_sampled hring' (by rw [hretire]; exact hroom), hlive]

/-! ### The checks and the events of a GEN read no slot (R130) -/

theorem outOfRange_slots (src : PhaseSource) (s : State) (ss : Vector Slot 32) :
    outOfRange src { s with slots := ss } = outOfRange src s := by
  cases src <;> rfl

theorem newPhase_slots (src : PhaseSource) (s : State) (ss : Vector Slot 32) :
    newPhase src { s with slots := ss } = newPhase src s := by
  cases src <;> rfl

theorem increment_slots (src : PhaseSource) (s : State) (ss : Vector Slot 32) :
    increment src { s with slots := ss } = increment src s := by
  cases src <;> rfl

theorem detect_slots (fam : Family) (s : State) (ss : Vector Slot 32) (p1 d : Word) :
    detect fam { s with slots := ss } p1 d = detect fam s p1 d := by
  cases fam <;> rfl

theorem AgreeOnLive.genCommand {s t : State} (h : AgreeOnLive s t) (hring : RingOk s) (fam : Family)
    (src : PhaseSource) : AgreeOnLive (genCommand fam src s) (genCommand fam src t) := by
  obtain ⟨hrest, hlive⟩ := agreeOnLive_iff.mp h
  have hfault : t.fault = s.fault := by rw [hrest]
  have hmode : t.mode = s.mode := by rw [hrest]
  have hrange : outOfRange src t = outOfRange src s := by rw [hrest, outOfRange_slots]
  have hphase : newPhase src t = newPhase src s := by rw [hrest, newPhase_slots]
  have hevents : detect fam t (newPhase src s) (increment src t) = eventsOf fam src s := by
    rw [hrest, detect_slots, increment_slots, eventsOf]
  have hfull : ∀ n, overfull n (retire t) = overfull n (retire s) := fun n => by
    rw [hrest] at hlive ⊢
    rw [retire_slots hlive.symm]
    rfl
  unfold Machine.genCommand
  simp only [hfault, hmode, hrange, hphase, hevents, hfull]
  rw [← eventsOf]
  split_ifs with _ _ _ _ hover
  · exact h.respond true 0#32
  · exact h.raiseFault .uninit
  · exact h.raiseFault .mode
  · exact h.raiseFault .range
  · exact h.raiseFault .overflow
  · exact h.sampled hring (by simpa [overfull] using hover) fam _

theorem AgreeOnLive.initCommand {s t : State} (h : AgreeOnLive s t) (fam : Family) (f : Word) :
    AgreeOnLive (initCommand fam f s) (initCommand fam f t) := by
  have hsame : initDatapath fam f t = initDatapath fam f s := by rw [h.rest]; rfl
  exact h.refusedOrWritten (hsame ▸ .refl _)

theorem AgreeOnLive.rdreg {s t : State} (h : AgreeOnLive s t) {reg : Nat} (hreg : reg < 0x20 ∨ 0x40 ≤ reg) :
    AgreeOnLive (after (.rdreg reg) s) (after (.rdreg reg) t) := by
  have hvalue : regValue reg t = regValue reg s := by rw [h.rest, regValue_slots hreg]
  cases hfound : regValue reg s with
  | some v =>
    rw [after_rdreg_of_some hfound, after_rdreg_of_some (hvalue.trans hfound)]
    exact h.respond false v
  | none =>
    rw [after_rdreg_of_none hfound, after_rdreg_of_none (hvalue.trans hfound)]
    exact h.raiseFault .illegal

theorem AgreeOnLive.after {s t : State} (h : AgreeOnLive s t) (hring : RingOk s) {i : Instr}
    (hread : ∀ reg, i = .rdreg reg → reg < 0x20 ∨ 0x40 ≤ reg) : AgreeOnLive (after i s) (after i t) := by
  rcases instr_cases i with rfl | ⟨ph, rfl⟩ | ⟨polb, wid, rfl⟩ | ⟨reg, rfl⟩ | ⟨fam, f, rfl⟩ | ⟨fam, src, rfl⟩
  · exact h.respond false 0#32
  · have hwritten : AgreeOnLive { s with phase := ph } { t with phase := ph } := ⟨by rw [h.rest], h.live⟩
    exact h.refusedOrWritten hwritten
  · have hwritten : AgreeOnLive { s with width := wid, pol := polb } { t with width := wid, pol := polb } :=
      ⟨by rw [h.rest], h.live⟩
    exact h.refusedOrWritten hwritten
  · exact h.rdreg (hread reg rfl)
  · rw [after_initOf, after_initOf]
    exact h.initCommand fam f
  · rw [after_genOf, after_genOf]
    exact h.genCommand hring fam src

end Sys2Proof.Machine
end

section
open Sys2Proof Sys2Proof.Machine

/-- Settles O45: an empty ring over cells of 0 meets the invariant. -/
theorem invHoldsAtReset : Obligations.InvHoldsAtReset := by
  unfold Obligations.InvHoldsAtReset
  intro tbl
  exact inv_of_empty rfl rfl rfl (Nat.zero_le _) rfl

/-- Settles O46: each way a step can go keeps the invariant. -/
theorem stepKeepsInv : Obligations.StepKeepsInv := by
  unfold Obligations.StepKeepsInv
  intro s t h hstep
  exact h.step hstep

/-- Settles O43: reset, delivery and every command keep the step table. -/
theorem stepTableIsReadOnly : Obligations.StepTableIsReadOnly := by
  unfold Obligations.StepTableIsReadOnly
  intro s t hstep
  rcases step_cases hstep with ⟨-, rfl⟩ | ⟨e, rest, -, ⟨-, rfl⟩ | ⟨-, -, rfl⟩ | ⟨-, -, i, -, rfl⟩ | ⟨-, -, -, rfl⟩⟩
  · rfl
  · rfl
  · rw [deliver_table]
  · rw [after_table, deliver_table]
  · rw [raiseFault_table, deliver_table]

/-- Settles O42: for each command, the elements it keeps contradict the clauses that do not list it. -/
theorem onlyListedCommandsWriteAnElement : Obligations.OnlyListedCommandsWriteAnElement := by
  unfold Obligations.OnlyListedCommandsWriteAnElement
  intro i s t hexec
  obtain rfl : after i s = t := by simpa [exec_eq_next_after] using hexec
  rcases instr_cases i with rfl | ⟨ph, rfl⟩ | ⟨polb, wid, rfl⟩ | ⟨reg, rfl⟩ | ⟨fam, f, rfl⟩ | ⟨fam, src, rfl⟩
  · simp [after_nop]
  · rw [after_setph_keeps]
    simp
  · rw [after_cfgsq_keeps]
    simp
  · rw [after_rdreg_keeps]
    simp
  · simp [initCommand_keeps]
  · simp [genCommand_keeps]

/-- Settles O30: an unfaulted end is a sample, whose frame is `sampled_frame`. -/
theorem genLeavesEverythingElse : Obligations.GenLeavesEverythingElse := by
  unfold Obligations.GenLeavesEverythingElse
  intro fam src s t hexec hfault
  obtain rfl : genCommand fam src s = t := by simpa [exec_genOf] using hexec
  rcases genCommand_ends fam src s with ⟨hf, he⟩ | ⟨-, c, he⟩ | ⟨hf, -, hroom, he⟩
  · simp [he, hf] at hfault
  · simp [he] at hfault
  · obtain ⟨hfreq, hmode, hclamp, hwidth, hpol, htable, hinputs⟩ := genCommand_keeps fam src s
    refine ⟨hfreq, hwidth, hpol, hmode, hf, hclamp, ?_, htable, hinputs, ?_, ?_⟩
    · rw [he, sampled_frame]
    · rw [he, sampled_frame]
      exact ⟨_, (sat16_bounds _).1, (sat16_bounds _).2, rfl⟩
    · intro hring i hi hout
      rw [he] at hout ⊢
      exact slotAt_sampled_of_ne hring hroom fam _ hi hout

/-- Settles O44: no command but a read of a slot register uses a slot outside the live range. -/
theorem staleSlotsAreSeenOnlyByRdreg : Obligations.StaleSlotsAreSeenOnlyByRdreg := by
  unfold Obligations.StaleSlotsAreSeenOnlyByRdreg
  intro i s t hinv h hread
  exact ⟨after i s, after i t, exec_eq_next_after i s, exec_eq_next_after i t, h.after hinv.ring hread⟩

end

/-! ## The memory family: ports and responses, the register map, assembler lines, a bank of blocks

A packed word is the sum of its fields at their positions (`toNat_or_field`): from it come the value of each register
word, that a read determines the fields it shows, and the words of RDREG. A word hits at most one row of the opcode
map (`hit_unique`), so decoding is finding the row. An edge without reset is delivery, then the command
(`step_of_accepts`), and every command adds one response (`after_adds_one_response`). -/

section
namespace Sys2Proof.Machine

/-! ### Fields of a word (R9, R71) -/

theorem toNat_field_zero {n : Nat} (v : BitVec n) (hn : n ≤ 32) : (field v 0).toNat = v.toNat := by
  rw [field, BitVec.shiftLeft_zero, BitVec.toNat_setWidth_of_le hn]

/-- A field placed above every bit a word uses adds its value at its position. -/
theorem toNat_or_field {n : Nat} (w : Word) (v : BitVec n) {lo : Nat} (hw : w.toNat < 2 ^ lo) (hfit : n + lo ≤ 32) :
    (w ||| field v lo).toNat = w.toNat + 2 ^ lo * v.toNat := by
  have hplaced : (field v lo).toNat = v.toNat <<< lo := by
    have hlt : v.toNat <<< lo < 2 ^ 32 := by
      rw [Nat.shiftLeft_eq]
      calc v.toNat * 2 ^ lo < 2 ^ n * 2 ^ lo := Nat.mul_lt_mul_of_pos_right v.isLt (Nat.two_pow_pos lo)
        _ = 2 ^ (n + lo) := (Nat.pow_add ..).symm
        _ ≤ 2 ^ 32 := Nat.pow_le_pow_right (by decide) hfit
    rw [field, BitVec.toNat_shiftLeft, BitVec.toNat_setWidth_of_le (by omega), Nat.mod_eq_of_lt hlt]
  rw [BitVec.toNat_or, hplaced, Nat.or_comm, ← Nat.shiftLeft_add_eq_or_of_lt hw, Nat.shiftLeft_eq, Nat.mul_comm,
    Nat.add_comm]

theorem statusWord_toNat (s : State) :
    (statusWord s).toNat = s.fault.toNat + 2 * s.clamp.toNat + 16 * (causeCode s.cause).toNat := by
  have hfault := s.fault.toNat_lt
  have hclamp := s.clamp.toNat_lt
  have h0 : (field (BitVec.ofBool s.fault) 0).toNat = s.fault.toNat := by
    rw [toNat_field_zero _ (by decide), BitVec.toNat_ofBool]
  have h1 := toNat_or_field (field (BitVec.ofBool s.fault) 0) (BitVec.ofBool s.clamp) (lo := 1) (by omega) (by decide)
  rw [h0, BitVec.toNat_ofBool] at h1
  rw [statusWord, toNat_or_field _ _ (by omega) (by decide), h1]
  rfl

theorem ringWord_toNat (s : State) :
    (ringWord s).toNat = s.head.toNat + 2 ^ 8 * s.tail.toNat + 2 ^ 16 * s.count.toNat := by
  have hhead := s.head.isLt
  have htail := s.tail.isLt
  have h0 := toNat_field_zero s.head (by decide)
  have h1 := toNat_or_field (field s.head 0) s.tail (lo := 8) (by omega) (by decide)
  rw [ringWord, toNat_or_field _ _ (by omega) (by decide), h1, h0]

theorem slotWord_toNat (e : Slot) :
    (slotWord e).toNat = e.frac.toNat + 2 ^ 4 * e.rising.toNat + 2 ^ 8 * e.age.toNat := by
  have hfrac := e.frac.isLt
  have hrising := e.rising.toNat_lt
  have h0 := toNat_field_zero e.frac (by decide)
  have h1 := toNat_or_field (field e.frac 0) (BitVec.ofBool e.rising) (lo := 4) (by omega) (by decide)
  rw [BitVec.toNat_ofBool] at h1
  rw [slotWord, toNat_or_field _ _ (by omega) (by decide), h1, h0]

/-! ### Register reads (R56) -/

theorem getElem_eq_cellAt (cs : Vector Word 16) (i : Fin 16) : cs[i] = cellAt cs i := by
  simp [cellAt, Nat.mod_eq_of_lt i.isLt]

theorem getElem_eq_slotAt (ss : Vector Slot 32) (j : Fin 32) : ss[j] = slotAt ss j := by
  simp [slotAt, Nat.mod_eq_of_lt j.isLt]

theorem regValue_cell (s : State) {i : Nat} (hi : i < 16) : regValue (0x10 + i) s = some (cellAt s.cells i) := by
  have hcell : 0x10 ≤ 0x10 + i ∧ 0x10 + i < 0x20 := by omega
  simp only [regValue, if_pos hcell, Nat.add_sub_cancel_left]
  simp [show ∀ k < 0x10, 0x10 + i ≠ k by omega]

theorem regValue_slot (s : State) {j : Nat} (hj : j < 32) :
    regValue (0x20 + j) s = some (slotWord (slotAt s.slots j)) := by
  have hcell : ¬(0x10 ≤ 0x20 + j ∧ 0x20 + j < 0x20) := by omega
  have hslot : 0x20 ≤ 0x20 + j ∧ 0x20 + j < 0x40 := by omega
  simp only [regValue, if_neg hcell, if_pos hslot, Nat.add_sub_cancel_left]
  simp [show ∀ k < 0x20, 0x20 + j ≠ k by omega]

theorem regValue_reserved (s : State) {reg : Nat} (hreg : (0x09 ≤ reg ∧ reg ≤ 0x0F) ∨ 0x40 ≤ reg) :
    regValue reg s = none := by
  have hcell : ¬(0x10 ≤ reg ∧ reg < 0x20) := by omega
  have hslot : ¬(0x20 ≤ reg ∧ reg < 0x40) := by omega
  simp only [regValue, if_neg hcell, if_neg hslot]
  simp [show ∀ k < 0x09, reg ≠ k by omega]

theorem exec_rdreg_of_some {reg : Nat} {s : State} {v : Word} (h : regValue reg s = some v) :
    exec (.rdreg reg) s = .next (answered false v s) := by
  rw [exec_eq_next_after, after_rdreg_of_some h, respond_eq_answered]

theorem exec_rdreg_of_none {reg : Nat} {s : State} (h : regValue reg s = none) :
    exec (.rdreg reg) s = .next (raiseFault .illegal s) := by
  rw [exec_eq_next_after, after_rdreg_of_none h]

theorem raiseFault_eq_ite (c : Cause) (s : State) :
    raiseFault c s = if s.fault then answered true 0#32 s else faultedBy c s := by
  rcases raiseFault_cases c s with ⟨hfault, he⟩ | ⟨hfault, he⟩ <;> simp [hfault, he]

/-! ### A read determines what it shows (R185) -/

theorem boolToNat_injective : Function.Injective Bool.toNat := by decide

theorem Cause.code_injective : Function.Injective Cause.code := by
  intro c d
  cases c <;> cases d <;> decide

theorem Cause.code_ne_zero (c : Cause) : c.code ≠ 0#4 := by
  cases c <;> decide

theorem causeCode_injective : Function.Injective causeCode := by
  intro c d h
  match c, d with
  | none, none => rfl
  | none, some d => exact absurd h.symm d.code_ne_zero
  | some c, none => exact absurd h c.code_ne_zero
  | some c, some d => exact congrArg some (Cause.code_injective h)

theorem Mode.code_injective : Function.Injective Mode.code := by
  intro m n
  cases m <;> cases n <;> decide

theorem field_zero_injective {n : Nat} (hn : n ≤ 32) : Function.Injective fun v : BitVec n => field v 0 := by
  intro v w h
  apply BitVec.eq_of_toNat_eq
  rw [← toNat_field_zero v hn, ← toNat_field_zero w hn]
  exact congrArg BitVec.toNat h

theorem status_eq_of_statusWord_eq {s t : State} (h : statusWord s = statusWord t) :
    s.fault = t.fault ∧ s.clamp = t.clamp ∧ s.cause = t.cause := by
  have hnat := congrArg BitVec.toNat h
  rw [statusWord_toNat, statusWord_toNat] at hnat
  have := s.fault.toNat_lt
  have := t.fault.toNat_lt
  have := s.clamp.toNat_lt
  have := t.clamp.toNat_lt
  exact ⟨boolToNat_injective (by omega), boolToNat_injective (by omega),
    causeCode_injective (BitVec.eq_of_toNat_eq (by omega))⟩

theorem cursors_eq_of_ringWord_eq {s t : State} (h : ringWord s = ringWord t) :
    s.head = t.head ∧ s.tail = t.tail ∧ s.count = t.count := by
  have hnat := congrArg BitVec.toNat h
  rw [ringWord_toNat, ringWord_toNat] at hnat
  refine ⟨?_, ?_, ?_⟩ <;> apply BitVec.eq_of_toNat_eq <;> omega

theorem slotWord_injective : Function.Injective slotWord := by
  rintro ⟨frac, rising, age⟩ ⟨frac', rising', age'⟩ h
  have hnat := congrArg BitVec.toNat h
  simp only [slotWord_toNat] at hnat
  have := rising.toNat_lt
  have := rising'.toNat_lt
  obtain rfl : frac = frac' := BitVec.eq_of_toNat_eq (by omega)
  obtain rfl : rising = rising' := boolToNat_injective (by omega)
  obtain rfl : age = age' := BitVec.eq_of_toNat_eq (by omega)
  rfl

/-! ### Decoding what the encoder writes (R71, R73) -/

/-- The packed word of an RDREG: OP and REG, no other field (R71, R73). -/
theorem packFields_rdreg (reg : BitVec 8) :
    packFields 5#4 0#2 false false reg = 0x00000005#32 ||| field reg 8 := rfl

theorem fieldReg_rdregWord (reg : BitVec 8) : fieldReg (0x00000005#32 ||| field reg 8) = reg := by
  have hreg : (field reg 8).extractLsb' 8 8 = reg := by
    ext i hi
    simp [field, show 8 + i < 32 by omega, BitVec.getLsbD_eq_getElem hi]
  rw [fieldReg, BitVec.extractLsb'_or, hreg]
  exact BitVec.zero_or

/-- A word matches at most one row: two patterns that agree under both masks are of one row (R73). -/
theorem hit_unique {r r' : OpcodeRow} (hr : r ∈ opcodeTable) (hr' : r' ∈ opcodeTable) {cmd : Word}
    (hhit : r.hit cmd = true) (hhit' : r'.hit cmd = true) : r = r' := by
  have hrows : ∀ r ∈ opcodeTable, ∀ r' ∈ opcodeTable, r.pattern &&& r'.mask = r'.pattern &&& r.mask → r = r' := by
    decide
  rw [OpcodeRow.hit, beq_iff_eq] at hhit hhit'
  exact hrows r hr r' hr' (by rw [← hhit, ← hhit', BitVec.and_assoc, BitVec.and_comm r.mask, BitVec.and_assoc])

theorem decode_of_hit {r : OpcodeRow} (hr : r ∈ opcodeTable) {cmd : Word} (hhit : r.hit cmd = true) (data : Word) :
    decode cmd data = .command (r.mnemonic.instr cmd data) := by
  have hsome : (opcodeTable.find? fun r => r.hit cmd).isSome = true := List.find?_isSome.mpr ⟨r, hr, hhit⟩
  obtain ⟨r', hfind⟩ := Option.isSome_iff_exists.mp hsome
  obtain rfl : r = r' := hit_unique hr (List.mem_of_find?_eq_some hfind) hhit
    (List.find?_some (p := fun r : OpcodeRow => r.hit cmd) hfind)
  rw [decode, hfind]

/-- The mask of RDREG's row leaves REG out (R73). -/
theorem field_reg_and_mask (reg : BitVec 8) : field reg 8 &&& 0xFFFF00FF#32 = 0#32 := by
  have hmask : ∀ i < 16, 8 ≤ i → (0xFFFF00FF#32).getLsbD i = false := by decide
  apply BitVec.eq_of_getLsbD_eq
  intro i hi
  rw [BitVec.getLsbD_and, BitVec.getLsbD_zero]
  by_cases hreg : 8 ≤ i ∧ i < 16
  · rw [hmask i hreg.2 hreg.1, Bool.and_false]
  · have hout : i < 8 ∨ 8 ≤ i - 8 := by omega
    rcases hout with hlow | hhigh
    · simp [field, hlow]
    · simp [field, BitVec.getLsbD_of_ge reg _ hhigh]

theorem decode_rdreg (reg : BitVec 8) (data : Word) :
    decode (0x00000005#32 ||| field reg 8) data = .command (.rdreg reg.toNat) := by
  have hhit : OpcodeRow.hit ⟨.rdreg, 0x00000005#32, 0xFFFF00FF#32⟩ (0x00000005#32 ||| field reg 8) = true := by
    simp only [OpcodeRow.hit, BitVec.and_or_distrib_right, field_reg_and_mask]
    decide
  rw [decode_of_hit (by decide) hhit, Mnemonic.instr, fieldReg_rdregWord]

theorem decode_initWord (fam : Family) (f : Word) :
    decode (packFields 1#4 fam.code false false 0#8) f = .command (initOf fam f) := by
  cases fam <;> rfl

theorem decode_genWord (fam : Family) (ps : Bool) (data : Word) :
    decode (packFields 2#4 fam.code ps false 0#8) data = .command (genOf fam (phaseSource ps data)) := by
  cases fam <;> cases ps <;> rfl

theorem decode_setphWord (ph : Word) : decode (packFields 3#4 0#2 false false 0#8) ph = .command (.setph ph) := rfl

theorem decode_cfgsqWord (polb : Bool) (wid : Word) :
    decode (packFields 4#4 0#2 false polb 0#8) wid = .command (.cfgsq polb wid) := by
  cases polb <;> rfl

theorem phaseSource_ps_data (src : PhaseSource) : phaseSource src.ps src.data = src := by
  cases src <;> rfl

theorem encode_genOf (fam : Family) (src : PhaseSource) :
    encode (genOf fam src) = (packFields 2#4 fam.code src.ps false 0#8, src.data) := by
  cases fam <;> rfl

theorem decode_encode_genOf (fam : Family) (src : PhaseSource) :
    decode (encode (genOf fam src)).1 (encode (genOf fam src)).2 = .command (genOf fam src) := by
  rw [encode_genOf, decode_genWord, phaseSource_ps_data]

theorem decode_encode {i : Instr} (h : WellFormed i = true) : decode (encode i).1 (encode i).2 = .command i := by
  cases i with
  | nop => rfl
  | initSaw f => exact decode_initWord .saw f
  | initRsaw f => exact decode_initWord .rsaw f
  | initSq f => exact decode_initWord .sq f
  | genSaw src => exact decode_encode_genOf .saw src
  | genRsaw src => exact decode_encode_genOf .rsaw src
  | genSq src => exact decode_encode_genOf .sq src
  | setph ph => exact decode_setphWord ph
  | cfgsq polb wid => exact decode_cfgsqWord polb wid
  | rdreg reg =>
    have hreg : reg < 256 := by simpa [WellFormed] using h
    have hnat : (BitVec.ofNat 8 reg).toNat = reg := Nat.mod_eq_of_lt hreg
    rw [encode, packFields_rdreg, decode_rdreg, hnat]

/-! ### Assembler lines (R78) -/

theorem RegName.toNumber_lt (r : RegName) : r.toNumber < 256 := by
  cases r with
  | cell i => simp only [RegName.toNumber]; omega
  | slot j => simp only [RegName.toNumber]; omega
  | number n => exact n.isLt
  | _ => decide

theorem wellFormed_instr (l : AsmLine) : WellFormed l.instr = true := by
  cases l with
  | init fam f => cases fam <;> rfl
  | gen fam => cases fam <;> rfl
  | genExt fam ph => cases fam <;> rfl
  | rdreg r => exact decide_eq_true r.toNumber_lt
  | _ => rfl

theorem assemble_genExt (fam : Family) (ph : Word) :
    assemble (.genExt fam ph) = (packFields 2#4 fam.code true false 0#8, ph) :=
  encode_genOf fam (.external ph)

theorem encode_rdreg {reg : Nat} (hreg : reg < 256) :
    encode (.rdreg reg) = (BitVec.ofNat 32 (5 + 2 ^ 8 * reg), 0#32) := by
  have hword : 0x00000005#32 ||| field (BitVec.ofNat 8 reg) 8 = BitVec.ofNat 32 (5 + 2 ^ 8 * reg) := by
    apply BitVec.eq_of_toNat_eq
    rw [toNat_or_field _ _ (by decide) (by decide), BitVec.toNat_ofNat, BitVec.toNat_ofNat, BitVec.toNat_ofNat]
    omega
  rw [encode, packFields_rdreg, hword]

/-! ### An edge without reset, and its responses (R52, R53) -/

/-- Delivery at an edge: the oldest pending response leaves if it is taken, and nothing else changes. -/
theorem deliver_eq (e : PortEdge) (s : State) :
    deliver e s = { s with pending := if e.rspValid && e.rspReady then s.pending.tail else s.pending } := by
  rw [deliver, (handshake_eq e).2]
  split <;> rfl

/-- What is delivered and what stays pending is what was pending. -/
theorem deliveredAt_append_deliver_pending (e : PortEdge) (s : State) :
    (deliveredAt e s).toList ++ (deliver e s).pending = s.pending := by
  rw [deliver_pending, deliveredAt]
  split
  · cases s.pending <;> rfl
  · rfl

section
variable {s : State} {e : PortEdge} {rest : List PortEdge} (hinputs : s.inputs = e :: rest) (hrst : e.rst = false)
include hinputs hrst

theorem step_of_accepts (haccepts : e.accepts = true) :
    step s = runCommand e.cmdWord e.cmdData (deliver e { s with inputs := rest }) := by
  simp [step, hinputs, hrst, haccepts]

theorem step_of_not_accepts (haccepts : e.accepts = false) : step s = .next (deliver e { s with inputs := rest }) := by
  simp [step, hinputs, hrst, haccepts]

end

/-- No edge stops the machine (R170, R172). -/
theorem exists_step_eq_next (s : State) : ∃ t, step s = .next t := by
  cases hinputs : s.inputs with
  | nil => exact ⟨s, by simp [step, hinputs]⟩
  | cons e rest =>
    cases hrst : e.rst with
    | true => exact ⟨({ s with inputs := rest } : State).applyReset, by simp [step, hinputs, hrst]⟩
    | false =>
      cases haccepts : e.accepts with
      | false => exact ⟨_, step_of_not_accepts hinputs hrst haccepts⟩
      | true =>
        rw [step_of_accepts hinputs hrst haccepts]
        rcases runCommand_cases e.cmdWord e.cmdData (deliver e { s with inputs := rest }) with
          ⟨i, -, he⟩ | ⟨-, he⟩ <;> exact ⟨_, he⟩

theorem initCommand_adds_one_response (fam : Family) (f : Word) (s : State) :
    ∃ r, (initCommand fam f s).pending = s.pending ++ [r] := by
  rcases initCommand_cases fam f s with ⟨-, he⟩ | ⟨-, he⟩ <;> rw [he] <;> exact ⟨_, rfl⟩

theorem genCommand_adds_one_response (fam : Family) (src : PhaseSource) (s : State) :
    ∃ r, (genCommand fam src s).pending = s.pending ++ [r] := by
  rcases genCommand_ends fam src s with ⟨-, he⟩ | ⟨-, c, he⟩ | ⟨-, -, -, he⟩
  · exact ⟨_, by rw [he, refuse_pending]⟩
  · exact ⟨_, by rw [he, faultedBy_pending]⟩
  · exact ⟨_, by rw [he, sampled_frame]⟩

/-- Every command answers once, behind the responses not yet taken, and takes no input (R53, R176). -/
theorem after_adds_one_response (i : Instr) (s : State) :
    (after i s).inputs = s.inputs ∧ ∃ r, (after i s).pending = s.pending ++ [r] := by
  rcases instr_cases i with rfl | ⟨ph, rfl⟩ | ⟨polb, wid, rfl⟩ | ⟨reg, rfl⟩ | ⟨fam, f, rfl⟩ | ⟨fam, src, rfl⟩
  · exact ⟨rfl, _, rfl⟩
  · rw [after_setph]
    split <;> exact ⟨rfl, _, rfl⟩
  · rw [after_cfgsq]
    split <;> exact ⟨rfl, _, rfl⟩
  · cases hreg : regValue reg s with
    | some v => rw [after_rdreg_of_some hreg]; exact ⟨rfl, _, rfl⟩
    | none => rw [after_rdreg_of_none hreg]; exact ⟨raiseFault_inputs .illegal s, _, raiseFault_pending .illegal s⟩
  · rw [after_initOf]
    exact ⟨by simp [initCommand_keeps], initCommand_adds_one_response fam f s⟩
  · rw [after_genOf]
    exact ⟨by simp [genCommand_keeps], genCommand_adds_one_response fam src s⟩

theorem runCommand_adds_one_response (cmd data : Word) (s : State) :
    ∃ t r, runCommand cmd data s = .next t ∧ t.inputs = s.inputs ∧ t.pending = s.pending ++ [r] := by
  rcases runCommand_cases cmd data s with ⟨i, -, he⟩ | ⟨-, he⟩
  · obtain ⟨hinputs, r, hpending⟩ := after_adds_one_response i s
    exact ⟨_, r, he, hinputs, hpending⟩
  · exact ⟨_, _, he, raiseFault_inputs .illegal s, raiseFault_pending .illegal s⟩

/-! ### A bank of blocks (R65, R184) -/

theorem stepAt_of_none {n : Nat} {bank : List State} (h : bank[n]? = none) : stepAt n bank = .next bank := by
  simp [stepAt, h]

theorem stepAt_of_some {n : Nat} {bank : List State} {s t : State} (h : bank[n]? = some s) (hstep : step s = .next t) :
    stepAt n bank = .next (bank.set n t) := by
  simp [stepAt, h, hstep]

theorem sharesTable_set {tbl : StepTable} {bank : List State} (h : sharesTable tbl bank) (n : Nat) {t : State}
    (ht : t.table = tbl) : sharesTable tbl (bank.set n t) := by
  intro u hu
  rcases List.mem_or_eq_of_mem_set hu with hold | rfl
  · exact h u hold
  · exact ht

end Sys2Proof.Machine
end

section
open Sys2Proof Sys2Proof.Machine

/-- Settles O7: every line stands for a well-formed command, so `decode_encode` gives the first clause; each
literal word is the encoder's. -/
theorem assemblerLinesDecodeToTheirCommand : Obligations.AssemblerLinesDecodeToTheirCommand := by
  unfold Obligations.AssemblerLinesDecodeToTheirCommand
  refine ⟨fun l => decode_encode (wellFormed_instr l), rfl, fun f => ⟨rfl, rfl, rfl⟩, rfl, rfl, rfl,
    fun ph => ⟨assemble_genExt .saw ph, assemble_genExt .rsaw ph, assemble_genExt .sq ph, rfl⟩,
    fun wid => ⟨rfl, rfl⟩, fun r => ?_, rfl, rfl, fun polv => rfl, rfl⟩
  exact encode_rdreg r.toNumber_lt

/-- Settles O11: delivery splits the pending responses, and an accepted command adds its one behind them. -/
theorem responsesComeOncePerCommandInOrder : Obligations.ResponsesComeOncePerCommandInOrder := by
  unfold Obligations.ResponsesComeOncePerCommandInOrder
  intro s e rest hinputs hrst
  have hsplit : (deliveredAt e s).toList ++ (deliver e { s with inputs := rest }).pending = s.pending :=
    deliveredAt_append_deliver_pending e { s with inputs := rest }
  rw [← (handshake_eq e).1]
  cases haccepts : e.accepts with
  | false =>
    refine ⟨_, [], step_of_not_accepts hinputs hrst haccepts, deliver_inputs .., rfl, ?_⟩
    rw [hsplit, List.append_nil]
  | true =>
    obtain ⟨t, r, hrun, hrest, hpending⟩ :=
      runCommand_adds_one_response e.cmdWord e.cmdData (deliver e { s with inputs := rest })
    refine ⟨t, [r], (step_of_accepts hinputs hrst haccepts).trans hrun, hrest.trans (deliver_inputs ..), rfl, ?_⟩
    rw [hpending, ← List.append_assoc, hsplit]

/-- Settles O13: `stepAt` is `List.set` with what the block's own step answers, which keeps its table. -/
theorem instancesAreIndependent : Obligations.InstancesAreIndependent := by
  unfold Obligations.InstancesAreIndependent
  intro n bank
  cases hget : bank[n]? with
  | none =>
    exact ⟨bank, stepAt_of_none hget, rfl, nofun, fun _ => rfl, fun _ _ => rfl, fun _ h => h⟩
  | some s =>
    obtain ⟨t, hstep⟩ := exists_step_eq_next s
    obtain ⟨hn, -⟩ := List.getElem?_eq_some_iff.mp hget
    refine ⟨bank.set n t, stepAt_of_some hget hstep, List.length_set .., ?_, nofun, ?_, ?_⟩
    · rintro _ ⟨⟩
      exact ⟨t, hstep, List.getElem?_set_self hn⟩
    · intro m hm
      exact List.getElem?_set_ne hm.symm
    · intro tbl hshared
      have hsame : t.table = s.table := stepTableIsReadOnly s t hstep
      exact sharesTable_set hshared n (hsame.trans (hshared s (List.mem_of_getElem? hget)))

/-- Settles O36: `regValue` at each number of the map, and the value of each packed register word. -/
theorem rdregReadsTheRegisterMap : Obligations.RdregReadsTheRegisterMap := by
  unfold Obligations.RdregReadsTheRegisterMap
  refine ⟨decode_rdreg, fun s => ⟨⟨statusWord s, exec_rdreg_of_some rfl, ?_⟩,
    ⟨field s.mode.code 0, exec_rdreg_of_some rfl, ?_⟩, exec_rdreg_of_some rfl, exec_rdreg_of_some rfl,
    exec_rdreg_of_some rfl, ⟨field (BitVec.ofBool s.pol) 0, exec_rdreg_of_some rfl, ?_⟩,
    ⟨ringWord s, exec_rdreg_of_some rfl, ringWord_toNat s⟩,
    ⟨field s.wptr 0, exec_rdreg_of_some rfl, toNat_field_zero s.wptr (by decide)⟩, exec_rdreg_of_some rfl, ?_, ?_, ?_⟩⟩
  · rw [statusWord_toNat]
    rcases s.cause with _ | c
    · rfl
    · cases c <;> rfl
  · rw [toNat_field_zero _ (by decide)]
    cases s.mode <;> rfl
  · rw [toNat_field_zero _ (by decide), BitVec.toNat_ofBool]
  · intro i
    rw [getElem_eq_cellAt]
    exact exec_rdreg_of_some (regValue_cell s i.isLt)
  · intro j
    rw [getElem_eq_slotAt]
    exact ⟨_, exec_rdreg_of_some (regValue_slot s j.isLt), slotWord_toNat _⟩
  · intro reg hreg
    rw [exec_rdreg_of_none (regValue_reserved s (by omega)), raiseFault_eq_ite]

/-- Settles O37: each register's word determines the fields it holds. -/
theorem registerReadsShowEveryElement : Obligations.RegisterReadsShowEveryElement := by
  unfold Obligations.RegisterReadsShowEveryElement
  intro s t h
  have hread : ∀ {reg v w}, reg < 0x40 → regValue reg s = some v → regValue reg t = some w → v = w :=
    fun hreg hs ht => Option.some.inj (hs.symm.trans ((h _ hreg).trans ht))
  obtain ⟨hfault, hclamp, hcause⟩ := status_eq_of_statusWord_eq (hread (reg := 0x00) (by decide) rfl rfl)
  obtain ⟨hhead, htail, hcount⟩ := cursors_eq_of_ringWord_eq (hread (reg := 0x06) (by decide) rfl rfl)
  have hmode : s.mode = t.mode :=
    Mode.code_injective (field_zero_injective (by decide) (hread (reg := 0x01) (by decide) rfl rfl))
  have hphase : s.phase = t.phase := hread (reg := 0x02) (by decide) rfl rfl
  have hfreq : s.freq = t.freq := hread (reg := 0x03) (by decide) rfl rfl
  have hwidth : s.width = t.width := hread (reg := 0x04) (by decide) rfl rfl
  have hpol : s.pol = t.pol :=
    BitVec.ofBool_eq_iff_eq.mp (field_zero_injective (by decide) (hread (reg := 0x05) (by decide) rfl rfl))
  have hwptr : s.wptr = t.wptr := field_zero_injective (by decide) (hread (reg := 0x07) (by decide) rfl rfl)
  have hcells : s.cells = t.cells := cells_ext fun i hi =>
    hread (by omega) (regValue_cell s hi) (regValue_cell t hi)
  have hslots : s.slots = t.slots := slots_ext fun j hj =>
    slotWord_injective (hread (by omega) (regValue_slot s hj) (regValue_slot t hj))
  exact ⟨hphase, hfreq, hwidth, hpol, hmode, hfault, hclamp, hcause, hcells, hwptr, hslots, hhead, htail, hcount⟩

/-- Settles O8: delivery first, then the decoded command. -/
theorem stepRunsTheDecodedCommand : Obligations.StepRunsTheDecodedCommand := by
  unfold Obligations.StepRunsTheDecodedCommand
  intro s e rest hinputs hrst hvalid hready
  have haccepts : e.accepts = true := by rw [(handshake_eq e).1, hvalid, hready]; rfl
  have hstep := step_of_accepts hinputs hrst haccepts
  rw [deliver_eq] at hstep
  constructor
  · intro i hdecode
    rw [hstep, runCommand, hdecode]
  · intro hdecode
    rw [hstep, runCommand, hdecode, execIllegal]

end

/-! ## The encoding family: the round trip, the opcode map, the illegal words, the example encodings

A word of a row is the row's match with the word's own variable bits (`eq_pattern_or_variable_bits`), which is what
the encoder writes back for the command the row decodes to (`encode_instr_fst`). Whether a word is legal is read off
its six fields: a reserved word is no encoding (`not_isReserved_encode`), any other is one
(`exists_decode_of_not_isReserved`). -/

section
namespace Sys2Proof.Machine

/-! ### Decoding is finding the row that matches (R73, R77) -/

theorem decode_eq_command_iff {cmd data : Word} {i : Instr} :
    decode cmd data = .command i ↔ ∃ r ∈ opcodeTable, r.hit cmd = true ∧ r.mnemonic.instr cmd data = i := by
  constructor
  · intro h
    rw [decode] at h
    cases hfind : opcodeTable.find? fun r => r.hit cmd with
    | none => simp [hfind] at h
    | some r =>
      have hhit : r.hit cmd = true := List.find?_some (p := fun r : OpcodeRow => r.hit cmd) hfind
      exact ⟨r, List.mem_of_find?_eq_some hfind, hhit, by simpa [hfind] using h⟩
  · rintro ⟨r, hr, hhit, rfl⟩
    exact decode_of_hit hr hhit data

theorem decode_eq_illegal_iff {cmd data : Word} :
    decode cmd data = .illegal ↔ ∀ r ∈ opcodeTable, r.hit cmd = false := by
  have hnone : (opcodeTable.find? fun r => r.hit cmd) = none ↔ ∀ r ∈ opcodeTable, r.hit cmd = false := by
    simp only [List.find?_eq_none, Bool.not_eq_true]
  rw [← hnone, decode]
  cases opcodeTable.find? fun r => r.hit cmd <;> simp

theorem decode_ne_illegal_iff {cmd data : Word} : decode cmd data ≠ .illegal ↔ ∃ i, decode cmd data = .command i := by
  cases decode cmd data <;> simp

/-! ### The variable bits of a row (R73) -/

theorem eq_pattern_or_variable_bits {r : OpcodeRow} {cmd : Word} (hhit : r.hit cmd = true) :
    cmd = r.pattern ||| (cmd &&& ~~~r.mask) := by
  rw [OpcodeRow.hit, beq_iff_eq] at hhit
  rw [← hhit, ← BitVec.and_or_distrib_left, BitVec.or_not_self, BitVec.and_allOnes]

theorem and_bit (cmd : Word) (i : Nat) :
    cmd &&& BitVec.twoPow 32 i = placeField (BitVec.ofBool (cmd.getLsbD i)) i := by
  rw [BitVec.and_twoPow, placeField]
  cases cmd.getLsbD i <;> simp [BitVec.twoPow]

theorem and_ps_bit (cmd : Word) : cmd &&& 0x00000040#32 = placeField (BitVec.ofBool (fieldPs cmd)) 6 :=
  and_bit cmd 6

theorem and_polb_bit (cmd : Word) : cmd &&& 0x00000080#32 = placeField (BitVec.ofBool (fieldPolb cmd)) 7 :=
  and_bit cmd 7

theorem and_reg_bits (cmd : Word) : cmd &&& 0x0000FF00#32 = placeField (fieldReg cmd) 8 := by
  have hmask : ∀ i < 32, (0x0000FF00#32).getLsbD i = decide (8 ≤ i ∧ i < 16) := by decide
  apply BitVec.eq_of_getLsbD_eq
  intro i hi
  rw [BitVec.getLsbD_and, hmask i hi]
  by_cases hlow : i < 8
  · simp [placeField, hlow, show ¬ 8 ≤ i by omega]
  · by_cases hhigh : i < 16
    · simp [placeField, fieldReg, hlow, hhigh, hi, show 8 ≤ i by omega, show i - 8 < 8 by omega,
        show 8 + (i - 8) = i by omega]
    · simp [placeField, hhigh, BitVec.getLsbD_of_ge (fieldReg cmd) (i - 8) (by omega)]

/-- A word of RDREG's row is 5 + 256 * REG. -/
theorem fieldReg_toNat_of_rdreg_match {cmd : Word} (hmatch : cmd &&& 0xFFFF00FF#32 = 0x00000005#32) :
    (fieldReg cmd).toNat = cmd.toNat / 256 := by
  have hword : cmd = 0x00000005#32 ||| field (fieldReg cmd) 8 :=
    (eq_pattern_or_variable_bits (r := ⟨.rdreg, 0x00000005#32, 0xFFFF00FF#32⟩) (beq_iff_eq.mpr hmatch)).trans
      (congrArg (0x00000005#32 ||| ·) (and_reg_bits cmd))
  have hnat := congrArg BitVec.toNat hword
  rw [toNat_or_field _ _ (by decide) (by decide)] at hnat
  simp only [BitVec.toNat_ofNat] at hnat
  omega

/-! ### Encoding what a row decodes to (R72, R73) -/

theorem phaseSource_ps (ps : Bool) (data : Word) : (phaseSource ps data).ps = ps := by
  cases ps <;> rfl

/-- The encoder writes back a row's match and, of the word the command was decoded from, the bits the mask leaves
out: PS, POLB or REG (R71, R73). -/
theorem encode_instr_fst {r : OpcodeRow} (hr : r ∈ opcodeTable) (cmd data : Word) :
    (encode (r.mnemonic.instr cmd data)).1 = r.pattern ||| (cmd &&& ~~~r.mask) := by
  have hgen (fam : Family) : (encode (genOf fam (phaseSource (fieldPs cmd) data))).1 =
      packFields 2#4 fam.code false false 0#8 ||| (cmd &&& 0x00000040#32) := by
    rw [encode_genOf, phaseSource_ps, and_ps_bit]
    cases fam <;> cases fieldPs cmd <;> rfl
  have hcfgsq : (encode (.cfgsq (fieldPolb cmd) data)).1 = 0x00000004#32 ||| (cmd &&& 0x00000080#32) := by
    rw [and_polb_bit]
    cases fieldPolb cmd <;> rfl
  have hrdreg : (encode (.rdreg (fieldReg cmd).toNat)).1 = 0x00000005#32 ||| (cmd &&& 0x0000FF00#32) := by
    rw [and_reg_bits, encode, BitVec.ofNat_toNat, BitVec.setWidth_eq, packFields_rdreg]
    rfl
  have hfixed (p : Word) : p = p ||| (cmd &&& ~~~0xFFFFFFFF#32) := by
    rw [show ~~~0xFFFFFFFF#32 = 0#32 from rfl, BitVec.and_zero, BitVec.or_zero]
  simp only [opcodeTable, List.mem_cons, List.not_mem_nil, or_false] at hr
  rcases hr with rfl | rfl | rfl | rfl | rfl | rfl | rfl | rfl | rfl | rfl
  · exact hfixed 0x00000000#32
  · exact hfixed 0x00000001#32
  · exact hfixed 0x00000011#32
  · exact hfixed 0x00000021#32
  · exact hgen .saw
  · exact hgen .rsaw
  · exact hgen .sq
  · exact hfixed 0x00000003#32
  · exact hcfgsq
  · exact hrdreg

/-- DATA as the encoder writes it: the word the command was decoded from, or 0 where the command ignores it (R72). -/
theorem encode_instr_snd (m : Mnemonic) (cmd data : Word) :
    (encode (m.instr cmd data)).2 = if ignoresData (m.instr cmd data) then 0#32 else data := by
  have hgen (fam : Family) (ps : Bool) : (encode (genOf fam (phaseSource ps data))).2 =
      if ignoresData (genOf fam (phaseSource ps data)) then 0#32 else data := by
    cases fam <;> cases ps <;> rfl
  cases m with
  | genSaw => exact hgen .saw (fieldPs cmd)
  | genRsaw => exact hgen .rsaw (fieldPs cmd)
  | genSq => exact hgen .sq (fieldPs cmd)
  | _ => rfl

/-- REG is an 8-bit field, so the number RDREG decodes to is below 256 (R71). -/
theorem wellFormed_mnemonic_instr (m : Mnemonic) (cmd data : Word) : WellFormed (m.instr cmd data) = true := by
  cases m with
  | rdreg => exact decide_eq_true (fieldReg cmd).isLt
  | _ => rfl

theorem encode_of_decode {cmd data : Word} {i : Instr} (h : decode cmd data = .command i) :
    WellFormed i = true ∧ (encode i).1 = cmd ∧ (encode i).2 = if ignoresData i then 0#32 else data := by
  obtain ⟨r, hr, hhit, rfl⟩ := decode_eq_command_iff.mp h
  exact ⟨wellFormed_mnemonic_instr .., (encode_instr_fst hr cmd data).trans (eq_pattern_or_variable_bits hhit).symm,
    encode_instr_snd ..⟩

/-! ### The fields of a word (R71) -/

theorem fieldOp_toNat (cmd : Word) : (fieldOp cmd).toNat = cmd.toNat % 16 := by
  simp [fieldOp, BitVec.extractLsb'_toNat]

theorem fieldFam_toNat (cmd : Word) : (fieldFam cmd).toNat = cmd.toNat / 16 % 4 := by
  simp [fieldFam, BitVec.extractLsb'_toNat, Nat.shiftRight_eq_div_pow]

theorem fieldPs_toNat (cmd : Word) : (fieldPs cmd).toNat = cmd.toNat / 64 % 2 := by
  rw [fieldPs, BitVec.getLsbD, Nat.toNat_testBit]

theorem fieldPolb_toNat (cmd : Word) : (fieldPolb cmd).toNat = cmd.toNat / 128 % 2 := by
  rw [fieldPolb, BitVec.getLsbD, Nat.toNat_testBit]

theorem fieldReg_toNat (cmd : Word) : (fieldReg cmd).toNat = cmd.toNat / 256 % 256 := by
  simp [fieldReg, BitVec.extractLsb'_toNat, Nat.shiftRight_eq_div_pow]

theorem fieldRsv_toNat (cmd : Word) : (fieldRsv cmd).toNat = cmd.toNat / 65536 % 65536 := by
  simp [fieldRsv, BitVec.extractLsb'_toNat, Nat.shiftRight_eq_div_pow]

theorem packFields_toNat (op : BitVec 4) (fam : BitVec 2) (ps polb : Bool) (reg : BitVec 8) :
    (packFields op fam ps polb reg).toNat =
      op.toNat + 2 ^ 4 * fam.toNat + 2 ^ 6 * ps.toNat + 2 ^ 7 * polb.toNat + 2 ^ 8 * reg.toNat := by
  have hps := ps.toNat_lt
  have hpolb := polb.toNat_lt
  have h0 := toNat_field_zero op (by decide)
  have h4 := toNat_or_field (field op 0) fam (lo := 4) (by omega) (by decide)
  have h6 := toNat_or_field (field op 0 ||| field fam 4) (BitVec.ofBool ps) (lo := 6) (by omega) (by decide)
  rw [BitVec.toNat_ofBool] at h6
  have h7 := toNat_or_field (field op 0 ||| field fam 4 ||| field (BitVec.ofBool ps) 6) (BitVec.ofBool polb) (lo := 7)
    (by omega) (by decide)
  rw [BitVec.toNat_ofBool] at h7
  have h8 := toNat_or_field (field op 0 ||| field fam 4 ||| field (BitVec.ofBool ps) 6 ||| field (BitVec.ofBool polb) 7)
    reg (lo := 8) (by omega) (by decide)
  rw [h7, h6, h4, h0] at h8
  exact h8

/-- A word with RSV = 0 is packed from its own fields. -/
theorem eq_packFields {cmd : Word} (hrsv : fieldRsv cmd = 0#16) :
    cmd = packFields (fieldOp cmd) (fieldFam cmd) (fieldPs cmd) (fieldPolb cmd) (fieldReg cmd) := by
  have hnat := congrArg BitVec.toNat hrsv
  rw [fieldRsv_toNat] at hnat
  have hlt := cmd.isLt
  apply BitVec.eq_of_toNat_eq
  rw [packFields_toNat, fieldOp_toNat, fieldFam_toNat, fieldPs_toNat, fieldPolb_toNat, fieldReg_toNat]
  simp only [BitVec.toNat_ofNat] at hnat
  omega

section
variable (op : BitVec 4) (fam : BitVec 2) (ps polb : Bool) (reg : BitVec 8)

@[simp] theorem fieldOp_packFields : fieldOp (packFields op fam ps polb reg) = op := by
  apply BitVec.eq_of_toNat_eq
  rw [fieldOp_toNat, packFields_toNat]
  omega

@[simp] theorem fieldFam_packFields : fieldFam (packFields op fam ps polb reg) = fam := by
  apply BitVec.eq_of_toNat_eq
  rw [fieldFam_toNat, packFields_toNat]
  omega

@[simp] theorem fieldPs_packFields : fieldPs (packFields op fam ps polb reg) = ps := by
  have hps := ps.toNat_lt
  apply boolToNat_injective
  rw [fieldPs_toNat, packFields_toNat]
  omega

@[simp] theorem fieldPolb_packFields : fieldPolb (packFields op fam ps polb reg) = polb := by
  have hps := ps.toNat_lt
  have hpolb := polb.toNat_lt
  apply boolToNat_injective
  rw [fieldPolb_toNat, packFields_toNat]
  omega

@[simp] theorem fieldReg_packFields : fieldReg (packFields op fam ps polb reg) = reg := by
  have hps := ps.toNat_lt
  have hpolb := polb.toNat_lt
  apply BitVec.eq_of_toNat_eq
  rw [fieldReg_toNat, packFields_toNat]
  omega

end

/-! ### The reserved words (R76) -/

/-- OP is unassigned, FAM is 3 where OP has families, or a bit is set that the word's row fixes at 0 (R76). -/
def IsReserved (cmd : Word) : Prop :=
  6 ≤ (fieldOp cmd).toNat ∨
  (((fieldOp cmd).toNat = 1 ∨ (fieldOp cmd).toNat = 2) ∧ (fieldFam cmd).toNat = 3) ∨
  fieldRsv cmd ≠ 0#16 ∨
  ((fieldOp cmd).toNat ≠ 5 ∧ fieldReg cmd ≠ 0#8) ∨
  ((fieldOp cmd).toNat ≠ 4 ∧ fieldPolb cmd = true) ∨
  ((fieldOp cmd).toNat ≠ 2 ∧ fieldPs cmd = true) ∨
  ((fieldOp cmd).toNat ≠ 1 ∧ (fieldOp cmd).toNat ≠ 2 ∧ fieldFam cmd ≠ 0#2)

theorem familyCode_ne_three (fam : Family) : fam.code.toNat ≠ 3 := by
  cases fam <;> decide

theorem exists_familyCode_eq {c : BitVec 2} (hc : c.toNat ≠ 3) : ∃ fam : Family, fam.code = c := by
  have hcodes : ∀ c : BitVec 2, c.toNat ≠ 3 → c = 0#2 ∨ c = 1#2 ∨ c = 2#2 := by decide
  rcases hcodes c hc with h | h | h
  · exact ⟨.saw, h.symm⟩
  · exact ⟨.rsaw, h.symm⟩
  · exact ⟨.sq, h.symm⟩

theorem op_cases : ∀ op : BitVec 4, op.toNat < 6 →
    op = 0#4 ∨ op = 1#4 ∨ op = 2#4 ∨ op = 3#4 ∨ op = 4#4 ∨ op = 5#4 := by
  decide

theorem encode_initOf (fam : Family) (f : Word) :
    encode (initOf fam f) = (packFields 1#4 fam.code false false 0#8, f) := by
  cases fam <;> rfl

theorem not_isReserved_encode (i : Instr) : ¬ IsReserved (encode i).1 := by
  have hrsv := Laws.ReservedBits.fieldRsv_packFields
  rcases instr_cases i with rfl | ⟨ph, rfl⟩ | ⟨polb, wid, rfl⟩ | ⟨reg, rfl⟩ | ⟨fam, f, rfl⟩ | ⟨fam, src, rfl⟩
  · simp [IsReserved, encode, hrsv]
  · simp [IsReserved, encode, hrsv]
  · simp [IsReserved, encode, hrsv]
  · simp [IsReserved, encode, hrsv]
  · simp [IsReserved, encode_initOf, hrsv, familyCode_ne_three]
  · simp [IsReserved, encode_genOf, hrsv, familyCode_ne_three]

/-- A word that is not reserved is one of the six packed forms, each of which decodes (R71, R73). -/
theorem exists_decode_of_not_isReserved {cmd : Word} (h : ¬ IsReserved cmd) (data : Word) :
    ∃ i, decode cmd data = .command i := by
  simp only [IsReserved, not_or, not_and, not_not, not_le, Bool.not_eq_true] at h
  obtain ⟨hop, hfamily, hrsv, hreg, hpolb, hps, hfam⟩ := h
  rw [eq_packFields hrsv]
  generalize fieldOp cmd = op, fieldFam cmd = fam, fieldPs cmd = ps, fieldPolb cmd = polb, fieldReg cmd = reg at *
  rcases op_cases op hop with rfl | rfl | rfl | rfl | rfl | rfl
  · obtain ⟨rfl, rfl, rfl, rfl⟩ : reg = 0#8 ∧ polb = false ∧ ps = false ∧ fam = 0#2 :=
      ⟨hreg (by decide), hpolb (by decide), hps (by decide), hfam (by decide) (by decide)⟩
    exact ⟨.nop, rfl⟩
  · obtain ⟨rfl, rfl, rfl⟩ : reg = 0#8 ∧ polb = false ∧ ps = false :=
      ⟨hreg (by decide), hpolb (by decide), hps (by decide)⟩
    obtain ⟨fam, rfl⟩ := exists_familyCode_eq (hfamily (.inl rfl))
    exact ⟨_, decode_initWord fam data⟩
  · obtain ⟨rfl, rfl⟩ : reg = 0#8 ∧ polb = false := ⟨hreg (by decide), hpolb (by decide)⟩
    obtain ⟨fam, rfl⟩ := exists_familyCode_eq (hfamily (.inr rfl))
    exact ⟨_, decode_genWord fam ps data⟩
  · obtain ⟨rfl, rfl, rfl, rfl⟩ : reg = 0#8 ∧ polb = false ∧ ps = false ∧ fam = 0#2 :=
      ⟨hreg (by decide), hpolb (by decide), hps (by decide), hfam (by decide) (by decide)⟩
    exact ⟨_, decode_setphWord data⟩
  · obtain ⟨rfl, rfl, rfl⟩ : reg = 0#8 ∧ ps = false ∧ fam = 0#2 :=
      ⟨hreg (by decide), hps (by decide), hfam (by decide) (by decide)⟩
    exact ⟨_, decode_cfgsqWord polb data⟩
  · obtain ⟨rfl, rfl, rfl⟩ : polb = false ∧ ps = false ∧ fam = 0#2 :=
      ⟨hpolb (by decide), hps (by decide), hfam (by decide) (by decide)⟩
    exact ⟨_, decode_rdreg reg data⟩

theorem decode_eq_illegal_iff_isReserved {cmd data : Word} : decode cmd data = .illegal ↔ IsReserved cmd := by
  constructor
  · intro hillegal
    by_contra hreserved
    obtain ⟨i, hdecode⟩ := exists_decode_of_not_isReserved hreserved data
    exact decode_ne_illegal_iff.mpr ⟨i, hdecode⟩ hillegal
  · intro hreserved
    by_contra hlegal
    obtain ⟨i, hdecode⟩ := decode_ne_illegal_iff.mp hlegal
    obtain ⟨-, hcmd, -⟩ := encode_of_decode hdecode
    exact not_isReserved_encode i (hcmd ▸ hreserved)

/-! ### DATA and the example encodings (R72, R80) -/

/-- The commands a row gives two DATA words are the same when the first ignores its DATA (R72). -/
theorem instr_eq_of_ignoresData {m : Mnemonic} {cmd data : Word} (h : ignoresData (m.instr cmd data) = true)
    (data' : Word) : m.instr cmd data' = m.instr cmd data := by
  have hsrc (ps : Bool) (hps : (!(phaseSource ps data).ps) = true) : phaseSource ps data' = phaseSource ps data := by
    rw [phaseSource_ps, Bool.not_eq_true'] at hps
    subst hps
    rfl
  cases m with
  | nop => rfl
  | rdreg => rfl
  | genSaw => exact congrArg Instr.genSaw (hsrc _ h)
  | genRsaw => exact congrArg Instr.genRsaw (hsrc _ h)
  | genSq => exact congrArg Instr.genSq (hsrc _ h)
  | initSaw | initRsaw | initSq | setph | cfgsq => exact absurd h (by simp [Mnemonic.instr, ignoresData])

/-- A line of text that is read as `l` and assembles to (CMD, DATA): the pair decodes to the command `l` stands for. -/
theorem assembles_and_decodes_of_parseLine {text : String} {l : AsmLine} {cmd data : Word}
    (hparse : parseLine text = some l) (hwords : assemble l = (cmd, data)) :
    (parseLine text).map assemble = some (cmd, data) ∧ decode cmd data = .command l.instr := by
  have hdecode : decode (assemble l).1 (assemble l).2 = .command l.instr := decode_encode (wellFormed_instr l)
  rw [hwords] at hdecode
  exact ⟨by rw [hparse, Option.map_some, hwords], hdecode⟩

end Sys2Proof.Machine
end

section
open Sys2Proof Sys2Proof.Machine

/-- Settles O1, by `decode_encode`: a case per instruction, the packed word of each decodes to it. -/
theorem decodeOfEncodeIsIdentity : Obligations.DecodeOfEncodeIsIdentity :=
  fun _ => decode_encode

/-- Settles O2: a word that matches a row is the row's match and its own variable bits, and so is the encoder's. -/
theorem encodeOfDecodeIsIdentity : Obligations.EncodeOfDecodeIsIdentity :=
  fun _ _ _ => encode_of_decode

/-- Settles O3: each row by `decode_of_hit`, at most one of them by `hit_unique`. -/
theorem opcodeMapDecodesByMaskAndMatch : Obligations.OpcodeMapDecodesByMaskAndMatch := by
  unfold Obligations.OpcodeMapDecodesByMaskAndMatch
  have hrow {r : OpcodeRow} (hr : r ∈ opcodeTable) (cmd data : Word) (hmatch : cmd &&& r.mask = r.pattern) :
      decode cmd data = .command (r.mnemonic.instr cmd data) := decode_of_hit hr (beq_iff_eq.mpr hmatch) data
  refine ⟨fun cmd data => ⟨?_, ?_, ?_, ?_, ?_, ?_, ?_, ?_, ?_, ?_, ?_⟩, ?_⟩
  · rintro rfl; rfl
  · rintro rfl; rfl
  · rintro rfl; rfl
  · rintro rfl; rfl
  · exact hrow (r := ⟨.genSaw, 0x00000002#32, 0xFFFFFFBF#32⟩) (by decide) cmd data
  · exact hrow (r := ⟨.genRsaw, 0x00000012#32, 0xFFFFFFBF#32⟩) (by decide) cmd data
  · exact hrow (r := ⟨.genSq, 0x00000022#32, 0xFFFFFFBF#32⟩) (by decide) cmd data
  · rintro rfl; rfl
  · exact hrow (r := ⟨.cfgsq, 0x00000004#32, 0xFFFFFF7F#32⟩) (by decide) cmd data
  · intro hmatch
    rw [← fieldReg_toNat_of_rdreg_match hmatch]
    exact hrow (r := ⟨.rdreg, 0x00000005#32, 0xFFFF00FF#32⟩) (by decide) cmd data hmatch
  · exact fun hnone => decode_eq_illegal_iff.mpr fun r hr => beq_eq_false_iff_ne.mpr (hnone r hr)
  · exact fun cmd r r' hr hr' hmatch hmatch' => hit_unique hr hr' (beq_iff_eq.mpr hmatch) (beq_iff_eq.mpr hmatch')

/-- Settles O4: the words that decode to nothing are the reserved ones, and running one takes the fault ILLEGAL. -/
theorem illegalWordsAreExactlyTheReservedOnes : Obligations.IllegalWordsAreExactlyTheReservedOnes := by
  unfold Obligations.IllegalWordsAreExactlyTheReservedOnes
  intro cmd data
  refine ⟨decode_eq_illegal_iff_isReserved, fun hillegal s => ?_⟩
  have hrun : runCommand cmd data s = .next (raiseFault .illegal s) := by rw [runCommand, hillegal, execIllegal]
  rw [hrun, raiseFault_eq_ite]
  exact ⟨fun hfault => by rw [hfault]; rfl, fun hfault => by rw [hfault]; rfl⟩

/-- Settles O5: which row a word matches is a matter of CMD alone. -/
theorem ignoredDataHasNoEffect : Obligations.IgnoredDataHasNoEffect := by
  unfold Obligations.IgnoredDataHasNoEffect
  intro cmd data data'
  constructor
  · rw [decode_eq_illegal_iff, decode_eq_illegal_iff]
  · intro i hdecode hignores
    obtain ⟨r, hr, hhit, rfl⟩ := decode_eq_command_iff.mp hdecode
    rw [decode_of_hit hr hhit, instr_eq_of_ignoresData hignores]

/-- Settles O6: each line is read as the abstract line named here, whose words are the encoder's. -/
theorem exampleEncodingsDecode : Obligations.ExampleEncodingsDecode := by
  unfold Obligations.ExampleEncodingsDecode
  refine ⟨assembles_and_decodes_of_parseLine (l := .nop) rfl rfl,
    assembles_and_decodes_of_parseLine (l := .init .saw 0x10000000#32) rfl rfl,
    assembles_and_decodes_of_parseLine (l := .init .rsaw 0x10000000#32) rfl rfl,
    assembles_and_decodes_of_parseLine (l := .init .sq 0x05CE13BD#32) rfl rfl,
    assembles_and_decodes_of_parseLine (l := .gen .saw) rfl rfl,
    assembles_and_decodes_of_parseLine (l := .genExt .saw 0x40000000#32) rfl rfl,
    assembles_and_decodes_of_parseLine (l := .gen .rsaw) rfl rfl,
    assembles_and_decodes_of_parseLine (l := .gen .sq) rfl rfl,
    assembles_and_decodes_of_parseLine (l := .genExt .sq 0x12345678#32) rfl rfl,
    assembles_and_decodes_of_parseLine (l := .setph 0xF0000000#32) rfl rfl,
    assembles_and_decodes_of_parseLine (l := .cfgsq false 0x80000000#32) rfl rfl,
    assembles_and_decodes_of_parseLine (l := .cfgsq true 0x40000000#32) rfl rfl,
    assembles_and_decodes_of_parseLine (l := .rdreg .status) rfl rfl,
    assembles_and_decodes_of_parseLine (l := .rdreg (.cell 3)) rfl rfl,
    assembles_and_decodes_of_parseLine (l := .rdreg (.slot 0)) rfl rfl,
    assembles_and_decodes_of_parseLine (l := .rdreg .id) rfl rfl,
    rfl, rfl, rfl, rfl, rfl, rfl⟩

end

/-! ## The datapath family: detector, correction ring, wrap law, history and mirror

The detector is what each edge of the family gives it (`detect_eq_flatMap`). A GEN that may run is `sampled`, whose
ring, cells and cursors are known; one that may not leaves the correction state alone (`genCommand_of_not_genReady`).
The wrap law counts what the sum of the increments carries out of 32 bits, and the closed form of the output is a
history whose taps are what the live events owe. -/

section
namespace Sys2Proof.Machine

/-! ### Naive values and contributions (R96, R97, R99) -/

theorem phaseHigh_eq (p1 : Word) : phaseHigh p1 = (p1.toNat / 65536 : Nat) := by
  have hlt := p1.isLt
  rw [phaseHigh, BitVec.extractLsb'_toNat, Nat.shiftRight_eq_div_pow, Nat.mod_eq_of_lt (by omega)]

theorem naive_rsaw (s t : State) (p1 : Word) : naive .rsaw t p1 = -1 - naive .saw s p1 := by
  simp only [naive]
  ring

theorem naive_sq (s : State) (p1 : Word) :
    naive .sq s p1 = if (p1.toNat < s.width.toNat ↔ s.pol = false) then 32767 else -32768 := by
  cases hpol : s.pol <;> simp [naive, hpol]

/-- At WIDTH = 0 no phase lies below WIDTH, so the level is the same at every phase (R133; log 18). -/
theorem naive_sq_of_width_zero {s : State} (hwidth : s.width = 0#32) (p1 : Word) :
    naive .sq s p1 = if s.pol then 32767 else -32768 := by
  cases hpol : s.pol <;> simp [naive_sq, hwidth, hpol]

theorem tableEntry_ofNat (t : StepTable) (f k : Fin 16) :
    tableEntry t (BitVec.ofNat 4 f.val) k.val = (t[f][k]).toInt := by
  simp [tableEntry, Nat.mod_eq_of_lt k.isLt]

theorem contrib_rising (t : StepTable) (f : BitVec 4) (k : Nat) : contrib t f k true = 2 * tableEntry t f k := by
  simp [contrib]

/-! ### The crossing test (R101, R102) -/

theorem crossed_iff {p1 d : Word} {e : Edge} : crossed p1 d e = true ↔ (p1 - e.boundary).toNat < d.toNat :=
  decide_eq_true_iff

theorem crossed_zero (p1 : Word) (e : Edge) : crossed p1 0#32 e = false := by
  simp [crossed]

/-- A boundary q behind the new phase is d - q ahead of the old one. -/
theorem crossed_iff_exists_ahead (p0 d b : Word) (r : Bool) :
    crossed (p0 + d) d ⟨b, r⟩ = true ↔ ∃ k : Nat, 1 ≤ k ∧ k ≤ d.toNat ∧ b = p0 + BitVec.ofNat 32 k := by
  rw [crossed_iff]
  constructor
  · intro (hq : (p0 + d - b).toNat < d.toNat)
    refine ⟨d.toNat - (p0 + d - b).toNat, by omega, by omega, ?_⟩
    bv_omega
  · rintro ⟨k, hpos, hle, rfl⟩
    have hk : (BitVec.ofNat 32 k).toNat = k := Nat.mod_eq_of_lt (by omega)
    bv_omega

theorem fracOf_toNat {p1 d : Word} {e : Edge} (h : crossed p1 d e = true) :
    (fracOf p1 d e).toNat = 16 * (p1 - e.boundary).toNat / d.toNat :=
  Nat.mod_eq_of_lt (frac_lt (crossed_iff.mp h))

/-! ### The detector's answer (R100, R103, R104) -/

/-- What one edge gives the detector: its event if it is crossed (R103). -/
def edgeEvents (p1 d : Word) (e : Edge) : List StepEvent :=
  if (p1 - e.boundary).toNat < d.toNat then [⟨fracOf p1 d e, e.rising⟩] else []

theorem detect_eq_flatMap (fam : Family) (s : State) (p1 d : Word) :
    detect fam s p1 d = (edges fam s).flatMap (edgeEvents p1 d) := by
  rw [detect]
  induction edges fam s with
  | nil => rfl
  | cons e es ih =>
    rw [List.flatMap_cons, edgeEvents, List.filter_cons, ← ih]
    simp only [crossed_iff]
    split <;> rfl

theorem detect_saw (s : State) (p1 d : Word) :
    detect .saw s p1 d = if p1.toNat < d.toNat then [⟨fracOf p1 d ⟨0#32, false⟩, false⟩] else [] := by
  rw [detect_eq_flatMap, edges, List.flatMap_singleton, edgeEvents, BitVec.sub_zero]

theorem detect_rsaw (s : State) (p1 d : Word) :
    detect .rsaw s p1 d = if p1.toNat < d.toNat then [⟨fracOf p1 d ⟨0#32, true⟩, true⟩] else [] := by
  rw [detect_eq_flatMap, edges, List.flatMap_singleton, edgeEvents, BitVec.sub_zero]

theorem detect_sq (s : State) (p1 d : Word) :
    detect .sq s p1 d =
      (if p1.toNat < d.toNat then [⟨fracOf p1 d ⟨0#32, !s.pol⟩, !s.pol⟩] else []) ++
      (if (p1 - s.width).toNat < d.toNat then [⟨fracOf p1 d ⟨s.width, s.pol⟩, s.pol⟩] else []) := by
  rw [detect_eq_flatMap, edges, List.flatMap_cons, List.flatMap_singleton, edgeEvents, edgeEvents, BitVec.sub_zero]

theorem detect_increment_zero (fam : Family) (s : State) (p1 : Word) : detect fam s p1 0#32 = [] := by
  simp [detect, crossed_zero]

/-- At WIDTH = 0 both edges of the square stand at phase 0: they are crossed together, with one offset (R103). -/
theorem detect_sq_of_width_zero {s : State} (hwidth : s.width = 0#32) (p1 d : Word) :
    detect .sq s p1 d = [] ∨ ∃ f, detect .sq s p1 d = [⟨f, !s.pol⟩, ⟨f, s.pol⟩] := by
  rw [detect_sq, hwidth, BitVec.sub_zero]
  split
  · exact .inr ⟨fracOf p1 d ⟨0#32, s.pol⟩, rfl⟩
  · exact .inl rfl

theorem tapSum_detect_of_width_zero {s : State} (hwidth : s.width = 0#32) (p1 d : Word) (t : StepTable) (k : Nat) :
    tapSum t k (detect .sq s p1 d) = 0 := by
  rcases detect_sq_of_width_zero hwidth p1 d with hnone | ⟨f, hpair⟩
  · rw [hnone, tapSum_nil]
  · rw [hpair, tapSum_cons, tapSum_cons, tapSum_nil, contrib_not]
    ring

/-- The new phase lies below the increment exactly when the sum has wrapped (R104). -/
theorem add_lt_increment_iff (p0 d : Word) : (p0 + d).toNat < d.toNat ↔ 2 ^ 32 ≤ p0.toNat + d.toNat := by
  rw [BitVec.toNat_add]
  omega

/-- The sum wraps exactly when the new phase lies below the old one (R92, R104). -/
theorem wraps_iff_lt (p0 d : Word) : 2 ^ 32 ≤ p0.toNat + d.toNat ↔ (p0 + d).toNat < p0.toNat := by
  rw [BitVec.toNat_add]
  omega

/-- A sawtooth of either direction detects its one event at a wrap, and none otherwise (R104). -/
theorem detect_length_of_saw_or_rsaw {fam : Family} (hfam : fam = .saw ∨ fam = .rsaw) (s : State) (p0 d : Word) :
    (detect fam s (p0 + d) d).length = if 2 ^ 32 ≤ p0.toNat + d.toNat then 1 else 0 := by
  rcases hfam with rfl | rfl <;> simp only [detect_saw, detect_rsaw, add_lt_increment_iff] <;> split <;> rfl

end Sys2Proof.Machine
end

section
open Sys2Proof Sys2Proof.Machine

/-- Settles O14, by the value of each naive formula. -/
theorem naiveValuesOfEachFamily : Obligations.NaiveValuesOfEachFamily := by
  unfold Obligations.NaiveValuesOfEachFamily
  intro s p1
  rw [← phaseHigh_eq]
  exact ⟨rfl, rfl, naive_sq s p1, naive_rsaw s s p1⟩

/-- Settles O15: the contribution by polarity, and its bounds from those of an s16 entry. -/
theorem contributionIsTwiceTheSignedEntry : Obligations.ContributionIsTwiceTheSignedEntry := by
  unfold Obligations.ContributionIsTwiceTheSignedEntry
  intro t f k
  have hrising : contrib t (BitVec.ofNat 4 f.val) k.val true = 2 * (t[f][k]).toInt := by
    rw [contrib_rising, tableEntry_ofNat]
  refine ⟨hrising, ?_, contrib_bounds t _ _⟩
  rw [← hrising]
  exact contrib_not t _ _ true

/-- Settles O16: the distances from a boundary to the new phase and from the old phase to it add up to d. -/
theorem crossedMeansInTheForwardArc : Obligations.CrossedMeansInTheForwardArc := by
  unfold Obligations.CrossedMeansInTheForwardArc
  intro p0 d b r
  refine ⟨rfl, crossed_iff_exists_ahead p0 d b r, fun hd => ?_, ?_, crossed_zero p0 _⟩
  · have hpos : d.toNat ≠ 0 := fun h => hd (BitVec.eq_of_toNat_eq h)
    rw [crossed_iff, BitVec.sub_self]
    exact Nat.pos_of_ne_zero hpos
  · have hbehind : p0 + d - p0 = d := by rw [BitVec.add_comm, BitVec.add_sub_cancel]
    simp [crossed, pastEdge, hbehind]

/-- Settles O17: q < d keeps the quotient within the four bits of an offset. -/
theorem fracIsTheFloorQuotient : Obligations.FracIsTheFloorQuotient := by
  unfold Obligations.FracIsTheFloorQuotient
  intro p1 d e hcrossed
  exact ⟨fracOf_toNat hcrossed, frac_lt (crossed_iff.mp hcrossed)⟩

/-- Settles O18: the number of events is 1 at a wrap and 0 otherwise. -/
theorem sawEdgeIsCrossedExactlyAtAWrap : Obligations.SawEdgeIsCrossedExactlyAtAWrap := by
  unfold Obligations.SawEdgeIsCrossedExactlyAtAWrap
  intro fam s p0 d hfam
  have hlength := detect_length_of_saw_or_rsaw hfam s p0 d
  refine ⟨?_, ?_, fun _ => wraps_iff_lt p0 d⟩
  · rw [hlength]
    split <;> omega
  · rw [← List.length_eq_zero_iff, hlength]
    split <;> omega

/-- Settles O19: the detector's list for each family, and the square's two edges at one place when WIDTH = 0. -/
theorem detectorAnswersTheCrossedEdgesInOrder : Obligations.DetectorAnswersTheCrossedEdgesInOrder := by
  unfold Obligations.DetectorAnswersTheCrossedEdgesInOrder
  intro s p1 d
  exact ⟨detect_saw s p1 d, detect_rsaw s p1 d, detect_sq s p1 d, fun hwidth =>
    ⟨naive_sq_of_width_zero hwidth p1, tapSum_detect_of_width_zero hwidth p1 d, detect_sq_of_width_zero hwidth p1 d⟩⟩

end

section
namespace Sys2Proof.Machine

/-! ### A GEN in a state of the invariant (R113, R130) -/

/-- A GEN of the family in force, while no fault is recorded: the RANGE check, the capacity check, then the sample. -/
theorem genCommand_of_familyMode {fam : Family} {s : State} (hfault : s.fault = false) (hmode : s.mode = familyMode fam)
    (src : PhaseSource) :
    genCommand fam src s =
      if outOfRange src s then faultedBy .range s
      else if overfull (eventsOf fam src s).length (retire s) then faultedBy .overflow s
      else sampled fam (newPhase src s) (eventsOf fam src s) s := by
  rcases genCommand_cases fam src s with ⟨hf, -⟩ | ⟨-, hnone, -⟩ | ⟨-, -, hother, -⟩ | ⟨-, -, hout, he⟩ |
    ⟨-, -, hin, hfull, he⟩ | ⟨-, -, hin, hroom, he⟩
  · simp [hfault] at hf
  · exact absurd (hmode.symm.trans hnone) (familyMode_ne_none fam)
  · exact absurd hmode hother
  · rw [he, hout]; rfl
  · rw [he, hin, hfull]; rfl
  · rw [he, hin, hroom]; rfl

/-- A GEN that may run and has room for its events produces its sample. -/
theorem genCommand_eq_sampled_of_room {fam : Family} {src : PhaseSource} {s : State} (hready : GenReady fam src s)
    (hroom : overfull (eventsOf fam src s).length (retire s) = false) :
    genCommand fam src s = sampled fam (newPhase src s) (eventsOf fam src s) s := by
  obtain ⟨hfault, hmode, hrange⟩ := hready
  rw [genCommand_of_familyMode hfault hmode, (outOfRange_eq_false_iff src s).mpr hrange, hroom]
  rfl

theorem genCommand_eq_sampled {fam : Family} {src : PhaseSource} {s : State} (h : Inv s) (hready : GenReady fam src s) :
    genCommand fam src s = sampled fam (newPhase src s) (eventsOf fam src s) s :=
  genCommand_eq_sampled_of_room hready (overfull_retire h fam src)

theorem exec_genOf_eq_sampled {fam : Family} {src : PhaseSource} {s : State} (h : Inv s)
    (hready : GenReady fam src s) :
    exec (genOf fam src) s = .next (sampled fam (newPhase src s) (eventsOf fam src s) s) := by
  rw [exec_genOf, genCommand_eq_sampled h hready]

/-- A GEN that may not run is refused, or faults by a cause other than OVERFLOW, for which there is always room. -/
theorem genCommand_of_not_genReady {fam : Family} {src : PhaseSource} {s : State} (h : Inv s)
    (hnot : ¬ GenReady fam src s) :
    genCommand fam src s = refuse s ∨ ∃ c, c ≠ .overflow ∧ genCommand fam src s = faultedBy c s := by
  rcases genCommand_cases fam src s with ⟨-, he⟩ | ⟨-, -, he⟩ | ⟨-, -, -, he⟩ | ⟨-, -, -, he⟩ | ⟨-, -, -, hfull, -⟩ |
    ⟨hfault, hmode, hrange, -, -⟩
  · exact .inl he
  · exact .inr ⟨_, by decide, he⟩
  · exact .inr ⟨_, by decide, he⟩
  · exact .inr ⟨_, by decide, he⟩
  · simp [overfull_retire h fam src] at hfull
  · exact absurd ⟨hfault, hmode, (outOfRange_eq_false_iff src s).mp hrange⟩ hnot

/-! ### OVERFLOW (R106, R113) -/

theorem genCommand_records_no_overflow {fam : Family} {src : PhaseSource} {s : State} (h : Inv s)
    (hcause : (genCommand fam src s).cause = some .overflow) : s.cause = some .overflow := by
  by_cases hready : GenReady fam src s
  · rw [genCommand_eq_sampled h hready, sampled_frame] at hcause
    exact hcause
  · rcases genCommand_of_not_genReady h hready with he | ⟨c, hc, he⟩
    · rwa [he, refuse_cause] at hcause
    · rw [he, faultedBy_cause, Option.some.injEq] at hcause
      exact absurd hcause hc

theorem after_rdreg_records_no_overflow {reg : Nat} {s : State}
    (hcause : (after (.rdreg reg) s).cause = some .overflow) : s.cause = some .overflow := by
  cases hreg : regValue reg s with
  | some v => rwa [after_rdreg_of_some hreg, respond_cause] at hcause
  | none =>
    rw [after_rdreg_of_none hreg, raiseFault_cause] at hcause
    split at hcause
    · exact hcause
    · cases hcause

/-- No command records OVERFLOW (R113). -/
theorem after_records_no_overflow {i : Instr} {s : State} (h : Inv s) (hcause : (after i s).cause = some .overflow) :
    s.cause = some .overflow := by
  rcases instr_cases i with rfl | ⟨ph, rfl⟩ | ⟨polb, wid, rfl⟩ | ⟨reg, rfl⟩ | ⟨fam, f, rfl⟩ | ⟨fam, src, rfl⟩
  · exact hcause
  · rwa [after_setph_keeps] at hcause
  · rwa [after_cfgsq_keeps] at hcause
  · exact after_rdreg_records_no_overflow hcause
  · obtain ⟨-, -, -, hkept, -⟩ := initCommand_keeps fam f s
    rwa [after_initOf, hkept] at hcause
  · rw [after_genOf] at hcause
    exact genCommand_records_no_overflow h hcause

/-! ### The bound of a cell (R112) -/

theorem tapSum_bounds (t : StepTable) (k : Nat) (evs : List StepEvent) :
    -65536 * (evs.length : Int) ≤ tapSum t k evs ∧ tapSum t k evs ≤ 65536 * (evs.length : Int) := by
  induction evs with
  | nil => simp
  | cons e es ih =>
    have htap := contrib_bounds t e.frac k e.rising
    rw [tapSum_cons, List.length_cons, Nat.cast_succ]
    omega

theorem owed_retire (s : State) (j : Nat) : owed (retire s) j = owed s j := by
  rw [owed, liveSlots_retire, retire_table, sum_tapOwed_dropWhile, owed]

/-- The 30 events live after retirement and the two of a GEN keep a cell within 32 * 65536 of 0. -/
theorem dueCell_insertAll_retire_bounds {s : State} (h : Inv s) {evs : List StepEvent} (hevs : evs.length ≤ 2) {k : Nat}
    (hk : k < 16) :
    -2 ^ 21 ≤ dueCell (insertAll evs (retire s)) k ∧ dueCell (insertAll evs (retire s)) k ≤ 2 ^ 21 := by
  have hlive := retire_count_le h
  have howed := owed_bounds (retire s) k
  have htaps := tapSum_bounds s.table k evs
  rw [owed_retire, ← h.cells k hk] at howed
  rw [dueCell_insertAll_retire h hevs hk]
  omega

/-- What holds of the cell of every coming sample holds of every cell. -/
theorem forall_cellAt_of_forall_dueCell {p : Int → Prop} {s : State} (h : ∀ k < 16, p (dueCell s k)) {i : Nat}
    (hi : i < 16) : p (cellAt s.cells i).toInt := by
  obtain ⟨k, hk, rfl⟩ := exists_wrap_eq s.wptr.toNat hi
  exact h k hk

/-! ### The ring after a GEN (R105) -/

/-- Ages fall from oldest to newest, so the used-up events are the ones at the old end. -/
theorem filter_agedOut_of_pairwise {l : List Slot} (hmax : ∀ e ∈ l, e.age.toNat ≤ 16)
    (horder : l.Pairwise fun e e' => e'.age.toNat ≤ e.age.toNat) :
    l.takeWhile agedOut = l.filter agedOut ∧ l.dropWhile agedOut = l.filter fun e => !agedOut e := by
  induction l with
  | nil => exact ⟨rfl, rfl⟩
  | cons e es ih =>
    obtain ⟨hfirst, hrest⟩ := List.pairwise_cons.mp horder
    obtain ⟨htake, hdrop⟩ := ih (fun e' he' => hmax e' (List.mem_cons_of_mem _ he')) hrest
    cases hused : agedOut e with
    | true => simp [hused, htake, hdrop]
    | false =>
      have hyoung : ∀ e' ∈ es, agedOut e' = false := by
        intro e' he'
        have hle := hfirst e' he'
        have hlim := hmax e (List.mem_cons_self ..)
        simp only [agedOut, decide_eq_false_iff_not] at hused ⊢
        omega
      have hall : es.filter (fun e' => !agedOut e') = es :=
        List.filter_eq_self.mpr fun e' he' => by simp [hyoung e' he']
      have hnone : es.filter agedOut = [] :=
        List.filter_eq_nil_iff.mpr fun e' he' => by simp [hyoung e' he']
      simp [hused, hall, hnone]

theorem liveSlots_pairwise {s : State} (h : AgesOk s) :
    (liveSlots s).Pairwise fun e e' => e'.age.toNat ≤ e.age.toNat := by
  rw [liveSlots, List.pairwise_map]
  refine List.pairwise_lt_range.imp_of_mem fun _ hj hij => ?_
  exact age_le_of_le h hij.le (List.mem_range.mp hj)

theorem liveSlots_filter_agedOut {s : State} (h : AgesOk s) :
    (liveSlots s).takeWhile agedOut = (liveSlots s).filter agedOut ∧
    (liveSlots s).dropWhile agedOut = (liveSlots s).filter fun e => !agedOut e := by
  refine filter_agedOut_of_pairwise (fun e he => ?_) (liveSlots_pairwise h)
  obtain ⟨j, hj, rfl⟩ := exists_liveSlot_of_mem he
  exact (h.1 j hj).2

/-- HEAD moves past the retired events (R105). -/
theorem head_sampled (fam : Family) (p1 : Word) (evs : List StepEvent) (s : State) :
    (sampled fam p1 evs s).head.toNat = wrap 32 s.head.toNat ((liveSlots s).takeWhile agedOut).length := by
  rw [sampled_frame, retire_eq, wrap32_toNat]

/-- TAIL moves past the inserted events (R107). -/
theorem tail_sampled (fam : Family) (p1 : Word) (evs : List StepEvent) (s : State) :
    (sampled fam p1 evs s).tail.toNat = wrap 32 s.tail.toNat evs.length := by
  have htail : (retire s).tail = s.tail := by rw [retire_frame]
  rw [sampled_frame, insertAll_tail, htail]

/-! ### An external phase that does not advance (R91, R200) -/

/-- A phase k behind PHASE is 2 ^ 32 - k ahead of it, out of range for every k up to half a cycle. -/
theorem outOfRange_of_behind (s : State) {k : Nat} (hpos : 1 ≤ k) (hhalf : k ≤ 2 ^ 31) :
    outOfRange (.external (s.phase - BitVec.ofNat 32 k)) s = true := by
  have hk : (BitVec.ofNat 32 k).toNat = k := Nat.mod_eq_of_lt (by omega)
  have hahead : (s.phase - BitVec.ofNat 32 k - s.phase).toNat = 2 ^ 32 - k := by bv_omega
  rw [outOfRange, decide_eq_true_iff, hahead, show Config.freqMax.toNat = 2 ^ 31 - 1 from rfl]
  omega

theorem eventsOf_same_phase (fam : Family) (s : State) : eventsOf fam (.external s.phase) s = [] := by
  rw [eventsOf, increment, BitVec.sub_self]
  exact detect_increment_zero ..

theorem genReady_same_phase {fam : Family} {s : State} (hfault : s.fault = false) (hmode : s.mode = familyMode fam) :
    GenReady fam (.external s.phase) s := by
  refine ⟨hfault, hmode, fun ph hph => ?_⟩
  obtain rfl : s.phase = ph := PhaseSource.external.inj hph
  rw [BitVec.sub_self]
  exact Nat.zero_le _

end Sys2Proof.Machine
end

section
open Sys2Proof Sys2Proof.Machine

/-- Settles O21: `retire_count_le` gives the room, and each command's way to end gives the cause. -/
theorem capacityIsNeverExceeded : Obligations.CapacityIsNeverExceeded := by
  unfold Obligations.CapacityIsNeverExceeded
  refine ⟨fun fam src s h => ⟨retire_count_le h, room_of_inv h (eventsOf_length_le_two fam src s)⟩, ?_⟩
  intro i s t h hexec hcause
  obtain rfl : after i s = t := by simpa [exec_eq_next_after] using hexec
  exact after_records_no_overflow h hcause

/-- Settles O20: RANGE behind PHASE; at PHASE itself the increment 0 crosses nothing and the GEN runs. -/
theorem externalPhaseBackwardFaultsRange : Obligations.ExternalPhaseBackwardFaultsRange := by
  unfold Obligations.ExternalPhaseBackwardFaultsRange
  intro fam s hfault hmode
  refine ⟨fun k hpos hhalf => ?_, eventsOf_same_phase fam s, fun h => ?_⟩
  · rw [exec_genOf, genCommand_of_familyMode hfault hmode, outOfRange_of_behind s hpos hhalf]
    rfl
  · refine ⟨_, exec_genOf_eq_sampled h (genReady_same_phase hfault hmode), ?_, ?_⟩
    · rw [sampled_frame, hfault]
    · rw [sampled_frame, newPhase]

/-- Settles O22: what is owed bounds a cell before the GEN, and the events that fit bound it during insertion. -/
theorem cellsNeverReachTheirBound : Obligations.CellsNeverReachTheirBound := by
  unfold Obligations.CellsNeverReachTheirBound
  intro fam src s h
  constructor
  · exact fun i hi => forall_cellAt_of_forall_dueCell (p := fun x => -2 ^ 21 ≤ x ∧ x ≤ 2 ^ 21)
      (fun k hk => dueCell_bounds h hk) hi
  · intro n i hi
    have hevs : ((eventsOf fam src s).take n).length ≤ 2 :=
      (List.length_take_le' ..).trans (eventsOf_length_le_two fam src s)
    exact forall_cellAt_of_forall_dueCell (p := fun x => -2 ^ 21 ≤ x ∧ x ≤ 2 ^ 21)
      (fun k hk => dueCell_insertAll_retire_bounds h hevs hk) hi

/-- Settles O28: the live slots after a sample, where the used-up events are those of AGE 16. -/
theorem genRetiresAgesAndInsertsEvents : Obligations.GenRetiresAgesAndInsertsEvents := by
  unfold Obligations.GenRetiresAgesAndInsertsEvents
  intro fam src s h hready
  obtain ⟨hretired, hkept⟩ := liveSlots_filter_agedOut h.ages
  refine ⟨_, exec_genOf_eq_sampled h hready, ?_, ?_, tail_sampled ..⟩
  · rw [liveSlots_sampled h.ring (room_of_inv h (eventsOf_length_le_two fam src s)), hkept]
    simp only [agedOut, decide_not]
    rfl
  · rw [head_sampled, hretired]
    rfl

/-- Settles O29, by the window after a sample. -/
theorem genShiftsAndScattersTheWindow : Obligations.GenShiftsAndScattersTheWindow := by
  unfold Obligations.GenShiftsAndScattersTheWindow
  intro fam src s h hready
  have hevs := eventsOf_length_le_two fam src s
  refine ⟨_, exec_genOf_eq_sampled h hready, fun j hj => ?_, ?_⟩
  · rw [dueCell_sampled h hevs _ _ (by omega), if_pos hj]
  · rw [dueCell_sampled h hevs _ _ (by decide), if_neg (by decide)]

/-- Settles O31: the two events of a square of WIDTH 0 cancel in every tap. -/
theorem zeroWidthSquareAddsNoCorrection : Obligations.ZeroWidthSquareAddsNoCorrection := by
  unfold Obligations.ZeroWidthSquareAddsNoCorrection
  intro src s h hready hwidth
  have hevs := eventsOf_length_le_two .sq src s
  have hcancel (k : Nat) : tapSum s.table k (eventsOf .sq src s) = 0 :=
    tapSum_detect_of_width_zero hwidth _ _ s.table k
  have hvalue : tapPerSampleValue .sq src s = (if s.pol then 32767 else -32768) + owed s 0 := by
    rw [tapPerSampleValue, hcancel, naive_sq_of_width_zero hwidth, add_zero]
  obtain ⟨hbelow, hwithin, habove⟩ := sat16_clips (tapPerSampleValue .sq src s)
  refine ⟨_, tapPerSampleValue .sq src s, sat16 (tapPerSampleValue .sq src s), exec_genOf .sq src s, hvalue,
    hbelow, hwithin, habove, genCommand_pending h hready, fun j hj => ?_⟩
  rw [genCommand_eq_sampled h hready, dueCell_sampled h hevs _ _ (by omega), if_pos hj, hcancel, add_zero]

end

section
namespace Sys2Proof.Machine

/-! ### Consecutive GENs with PS = 0 (R92) -/

/-- The state after n GENs of the family in a row, each with PS = 0. -/
def freeRun (fam : Family) (n : Nat) (s : State) : State := afterAll (List.replicate n (genOf fam .internal)) s

theorem phaseAfter_eq (fam : Family) (n : Nat) (s : State) : phaseAfter fam n s = (freeRun fam n s).phase := rfl

theorem freeRun_succ (fam : Family) (n : Nat) (s : State) :
    freeRun fam (n + 1) s = genCommand fam .internal (freeRun fam n s) := by
  rw [freeRun, List.replicate_succ', afterAll_append, afterAll_cons, afterAll_nil, after_genOf, freeRun]

theorem genReady_internal_genCommand {fam : Family} {s : State} (h : Inv s) (hready : GenReady fam .internal s) :
    GenReady fam .internal (genCommand fam .internal s) := by
  rw [genCommand_eq_sampled h hready, sampled_frame]
  obtain ⟨hfault, hmode, -⟩ := hready
  exact ⟨hfault, hmode, nofun⟩

section
variable {fam : Family} {s : State} (h : Inv s) (hready : GenReady fam .internal s)
include h hready

/-- Every GEN of the run may run, and none writes FREQ. -/
theorem freeRun_keeps (n : Nat) :
    Inv (freeRun fam n s) ∧ GenReady fam .internal (freeRun fam n s) ∧ (freeRun fam n s).freq = s.freq := by
  induction n with
  | zero => exact ⟨h, hready, rfl⟩
  | succ n ih =>
    obtain ⟨hinv, hruns, hfreq⟩ := ih
    obtain ⟨hkept, -⟩ := genCommand_keeps fam .internal (freeRun fam n s)
    rw [freeRun_succ, hkept, hfreq]
    exact ⟨inv_genCommand fam .internal hinv, genReady_internal_genCommand hinv hruns, rfl⟩

theorem phaseAfter_succ (n : Nat) : phaseAfter fam (n + 1) s = phaseAfter fam n s + s.freq := by
  obtain ⟨hinv, hruns, hfreq⟩ := freeRun_keeps h hready n
  rw [phaseAfter_eq, freeRun_succ, genCommand_phase hinv hruns, newPhase, hfreq, phaseAfter_eq]

theorem phaseAfter_toNat (n : Nat) :
    (phaseAfter fam n s).toNat = (s.phase.toNat + n * s.freq.toNat) % 2 ^ 32 := by
  induction n with
  | zero =>
    rw [Nat.zero_mul, Nat.add_zero]
    exact (Nat.mod_eq_of_lt s.phase.isLt).symm
  | succ n ih => rw [phaseAfter_succ h hready, BitVec.toNat_add, ih, Nat.mod_add_mod, Nat.succ_mul, Nat.add_assoc]

theorem wrapCount_succ (n : Nat) :
    wrapCount fam (n + 1) s =
      wrapCount fam n s + if 2 ^ 32 ≤ (phaseAfter fam n s).toNat + s.freq.toNat then 1 else 0 := by
  rw [wrapCount, List.range_succ, List.filter_append, List.length_append, List.filter_singleton,
    phaseAfter_succ h hready, wrapCount]
  simp only [wraps_iff_lt]
  by_cases hwrap : (phaseAfter fam n s + s.freq).toNat < (phaseAfter fam n s).toNat
  · rw [decide_eq_true hwrap, if_pos hwrap]; rfl
  · rw [decide_eq_false hwrap, if_neg hwrap]; rfl

/-- Each wrap carries 2 ^ 32 out of the sum of the increments. -/
theorem wrapCount_eq (n : Nat) : wrapCount fam n s = (s.phase.toNat + n * s.freq.toNat) / 2 ^ 32 := by
  induction n with
  | zero =>
    rw [Nat.zero_mul, Nat.add_zero]
    exact (Nat.div_eq_of_lt s.phase.isLt).symm
  | succ n ih =>
    have hfreq := s.freq.isLt
    rw [wrapCount_succ h hready, ih, phaseAfter_toNat h hready, Nat.succ_mul, ← Nat.add_assoc]
    generalize s.phase.toNat + n * s.freq.toNat = total
    split <;> omega

end

/-! ### The closed form of the output (R114) -/

/-- The sum of tap k of the newest GEN's events, tap k + 1 of those before them, and so on up to tap 15. -/
def historyTaps (t : StepTable) : Nat → List (List StepEvent) → Int
  | _, [] => 0
  | k, evs :: hist => (if k < 16 then tapSum t k evs else 0) + historyTaps t (k + 1) hist

theorem historyTaps_of_ge (t : StepTable) {k : Nat} (hk : 16 ≤ k) (hist : List (List StepEvent)) :
    historyTaps t k hist = 0 := by
  induction hist generalizing k with
  | nil => rfl
  | cons evs hist ih => rw [historyTaps, if_neg (by omega), ih (by omega), add_zero]

theorem sum_zipIdx_take_eq_historyTaps (t : StepTable) {n k : Nat} (hsum : n + k = 16)
    (hist : List (List StepEvent)) :
    (((hist.take n).zipIdx k).map fun p => tapSum t p.2 p.1).sum = historyTaps t k hist := by
  induction hist generalizing n k with
  | nil => simp [historyTaps]
  | cons evs hist ih =>
    cases n with
    | zero => rw [historyTaps_of_ge t (by omega)]; rfl
    | succ n =>
      rw [List.take_succ_cons, List.zipIdx_cons, List.map_cons, List.sum_cons, ih (by omega), historyTaps,
        if_pos (by omega)]

theorem closedCorrection_eq_historyTaps (t : StepTable) (hist : List (List StepEvent)) :
    closedCorrection t hist = historyTaps t 0 hist :=
  sum_zipIdx_take_eq_historyTaps t rfl hist

/-- The history accounts for the live events: what they owe the sample j ahead are the coming taps of the history. -/
structure Accounts (t : StepTable) (s : State) (hist : List (List StepEvent)) : Prop where
  inv   : Inv s
  table : s.table = t
  taps  : ∀ j, owed s j = historyTaps t (j + 1) hist

theorem owed_of_empty {s : State} (hcount : s.count.toNat = 0) (j : Nat) : owed s j = 0 := by
  simp [owed, liveSlots, hcount]

theorem accounts_nil {s : State} (h : Inv s) (hcount : s.count.toNat = 0) : Accounts s.table s [] :=
  ⟨h, rfl, owed_of_empty hcount⟩

/-- A sample's events enter the history in front of the earlier ones, whose next tap is due. -/
theorem Accounts.sampled_taps {t : StepTable} {s : State} {hist : List (List StepEvent)} (h : Accounts t s hist)
    {evs : List StepEvent} (hevs : evs.length ≤ 2) (fam : Family) (p1 : Word) (j : Nat) :
    owed (sampled fam p1 evs s) j = historyTaps t (j + 1) (evs :: hist) := by
  rw [owed_sampled h.inv hevs, h.taps, h.table, historyTaps, add_comm]
  simp only [Nat.succ_lt_succ_iff]

theorem genRuns_iff {fam : Family} {src : PhaseSource} {s : State} :
    genRuns fam src s = true ↔ GenReady fam src s := by
  rw [GenReady, ← outOfRange_eq_false_iff]
  simp [genRuns, and_assoc]

theorem noteEvents_initOf (fam : Family) (f : Word) (s : State) (hist : List (List StepEvent)) :
    noteEvents (initOf fam f) s hist = if s.fault then hist else [] := by
  cases fam <;> rfl

theorem noteEvents_genOf (fam : Family) (src : PhaseSource) (s : State) (hist : List (List StepEvent)) :
    noteEvents (genOf fam src) s hist = if genRuns fam src s then eventsOf fam src s :: hist else hist := by
  cases fam <;> rfl

theorem Accounts.initOf_taps {t : StepTable} {s : State} {hist : List (List StepEvent)} (h : Accounts t s hist)
    (fam : Family) (f : Word) (j : Nat) :
    owed (initCommand fam f s) j = historyTaps t (j + 1) (noteEvents (initOf fam f) s hist) := by
  rw [noteEvents_initOf]
  rcases initCommand_cases fam f s with ⟨hfault, he⟩ | ⟨hfault, he⟩
  · rw [he, if_pos hfault]
    exact h.taps j
  · rw [he, hfault]
    exact owed_of_empty rfl j

theorem Accounts.genOf_taps {t : StepTable} {s : State} {hist : List (List StepEvent)} (h : Accounts t s hist)
    (fam : Family) (src : PhaseSource) (j : Nat) :
    owed (genCommand fam src s) j = historyTaps t (j + 1) (noteEvents (genOf fam src) s hist) := by
  rw [noteEvents_genOf]
  by_cases hready : GenReady fam src s
  · rw [if_pos (genRuns_iff.mpr hready), genCommand_eq_sampled h.inv hready,
      h.sampled_taps (eventsOf_length_le_two fam src s)]
  · rw [if_neg (genRuns_iff.not.mpr hready), ← h.taps]
    rcases genCommand_of_not_genReady h.inv hready with he | ⟨c, -, he⟩ <;> rw [he] <;> rfl

theorem Accounts.after {t : StepTable} {s : State} {hist : List (List StepEvent)} (h : Accounts t s hist) (i : Instr) :
    Accounts t (after i s) (noteEvents i s hist) := by
  refine ⟨h.inv.after i, (after_table i s).trans h.table, fun j => ?_⟩
  rcases instr_cases i with rfl | ⟨ph, rfl⟩ | ⟨polb, wid, rfl⟩ | ⟨reg, rfl⟩ | ⟨fam, f, rfl⟩ | ⟨fam, src, rfl⟩
  · exact h.taps j
  · rw [after_setph_keeps]
    exact h.taps j
  · rw [after_cfgsq_keeps]
    exact h.taps j
  · rw [after_rdreg_keeps]
    exact h.taps j
  · rw [after_initOf]
    exact h.initOf_taps fam f j
  · rw [after_genOf]
    exact h.genOf_taps fam src j

theorem Accounts.runHistory {t : StepTable} {s : State} {hist : List (List StepEvent)} (h : Accounts t s hist)
    (is : List Instr) : Accounts t (runHistory is s hist).1 (runHistory is s hist).2 := by
  induction is generalizing s hist with
  | nil => exact h
  | cons i is ih => exact ih (h.after i)

/-- The closed form with the events of this GEN in front: their tap 0, and what the live events owe this sample. -/
theorem Accounts.closedCorrection_cons {t : StepTable} {s : State} {hist : List (List StepEvent)}
    (h : Accounts t s hist) (evs : List StepEvent) :
    closedCorrection t (evs :: hist) = owed s 0 + tapSum t 0 evs := by
  rw [closedCorrection_eq_historyTaps, historyTaps, if_pos (by decide), h.taps, add_comm]

/-! ### The mirror of the sawtooth (R132) -/

/-- The same slot with the opposite polarity. -/
def mirroredSlot (e : Slot) : Slot := { e with rising := !e.rising }

/-- The same event with the opposite polarity. -/
def mirroredEvent (e : StepEvent) : StepEvent := { e with rising := !e.rising }

theorem tapOwed_mirroredSlot (t : StepTable) (j : Nat) (e : Slot) : tapOwed t j (mirroredSlot e) = -tapOwed t j e := by
  simp only [tapOwed, mirroredSlot, contrib_not]
  split <;> simp

theorem tapSum_mirroredEvent (t : StepTable) (k : Nat) (evs : List StepEvent) :
    tapSum t k (evs.map mirroredEvent) = -tapSum t k evs := by
  induction evs with
  | nil => rfl
  | cons e es ih =>
    rw [List.map_cons, tapSum_cons, tapSum_cons, ih, mirroredEvent, contrib_not]
    ring

theorem detect_rsaw_eq_mirrored (s t : State) (p1 d : Word) :
    detect .rsaw t p1 d = (detect .saw s p1 d).map mirroredEvent := by
  rw [detect_saw, detect_rsaw]
  split <;> rfl

theorem MirrorOf.liveSlots_eq {s t : State} (h : MirrorOf s t) : liveSlots t = (liveSlots s).map mirroredSlot := by
  obtain ⟨-, -, hcount⟩ := h.ring
  rw [liveSlots, liveSlots, List.map_map, hcount]
  refine List.map_congr_left fun j hj => ?_
  obtain ⟨hfrac, hrising, hage⟩ := h.live j (List.mem_range.mp hj)
  rw [Function.comp_apply, mirroredSlot, ← hrising, ← hfrac, ← hage]

theorem mirrored_live_of_liveSlots {s t : State} (hcount : t.count = s.count)
    (hlive : liveSlots t = (liveSlots s).map mirroredSlot) {j : Nat} (hj : j < s.count.toNat) :
    (liveSlot t j).frac = (liveSlot s j).frac ∧ (liveSlot t j).rising = !(liveSlot s j).rising ∧
      (liveSlot t j).age = (liveSlot s j).age := by
  have hslot : some (liveSlot t j) = some (mirroredSlot (liveSlot s j)) := by
    rw [← liveSlots_getElem? (by rwa [hcount]), hlive, List.getElem?_map, liveSlots_getElem? hj, Option.map_some]
  rw [Option.some.inj hslot]
  exact ⟨rfl, rfl, rfl⟩

theorem MirrorOf.owed_eq_neg {s t : State} (h : MirrorOf s t) (j : Nat) : owed t j = -owed s j := by
  rw [owed, h.liveSlots_eq, h.table, List.map_map, owed, List.sum_neg, List.map_map]
  congr 2
  funext e
  exact tapOwed_mirroredSlot s.table j e

end Sys2Proof.Machine
end

section
namespace Sys2Proof.Machine

/-! ### A GEN keeps the mirror (R132) -/

/-- Polarity has no part in whether an event is used up. -/
theorem agedOut_comp_mirroredSlot : agedOut ∘ mirroredSlot = agedOut := rfl

/-- A sawtooth and its mirror retire as many events. -/
theorem MirrorOf.retired {s t : State} (h : MirrorOf s t) :
    (retire t).head = (retire s).head ∧ (retire t).count = (retire s).count := by
  obtain ⟨hhead, -, -⟩ := h.ring
  rw [retire_eq t, retire_eq s, h.liveSlots_eq, List.takeWhile_map, List.dropWhile_map, agedOut_comp_mirroredSlot,
    hhead]
  simp only [List.length_map, and_self]

section
variable {s t : State} {evs : List StepEvent} (h : MirrorOf s t) (hs : Inv s) (ht : Inv t) (hevs : evs.length ≤ 2)
include h hs ht hevs

theorem MirrorOf.ring_sampled (p1 : Word) :
    (sampled .rsaw p1 (evs.map mirroredEvent) t).head = (sampled .saw p1 evs s).head ∧
    (sampled .rsaw p1 (evs.map mirroredEvent) t).tail = (sampled .saw p1 evs s).tail ∧
    (sampled .rsaw p1 (evs.map mirroredEvent) t).count = (sampled .saw p1 evs s).count := by
  obtain ⟨-, htail, -⟩ := h.ring
  obtain ⟨hretired, hleft⟩ := h.retired
  have hcount := insertAll_count evs (retire s) (room_of_inv hs hevs)
  have hcount' := insertAll_count (evs.map mirroredEvent) (retire t) (room_of_inv ht (by rwa [List.length_map]))
  refine ⟨?_, ?_, ?_⟩
  · rw [sampled_frame, sampled_frame .saw]
    exact hretired
  · apply BitVec.eq_of_toNat_eq
    rw [tail_sampled, tail_sampled, htail, List.length_map]
  · apply BitVec.eq_of_toNat_eq
    rw [sampled_frame, sampled_frame .saw]
    simp only [hcount, hcount', hleft, List.length_map]

theorem MirrorOf.liveSlots_sampled (p1 : Word) :
    liveSlots (sampled .rsaw p1 (evs.map mirroredEvent) t) =
      (liveSlots (sampled .saw p1 evs s)).map mirroredSlot := by
  rw [Machine.liveSlots_sampled ht.ring (room_of_inv ht (by rwa [List.length_map])),
    Machine.liveSlots_sampled hs.ring (room_of_inv hs hevs), h.liveSlots_eq, List.dropWhile_map,
    agedOut_comp_mirroredSlot]
  simp only [List.map_append, List.map_map]
  rfl

theorem MirrorOf.dueCell_sampled (p1 : Word) {j : Nat} (hj : j < 16) :
    dueCell (sampled .rsaw p1 (evs.map mirroredEvent) t) j = -dueCell (sampled .saw p1 evs s) j := by
  rw [Machine.dueCell_sampled ht (by rwa [List.length_map]) _ _ hj, Machine.dueCell_sampled hs hevs _ _ hj, h.table,
    tapSum_mirroredEvent]
  split
  · rw [h.cells (j + 1) (by omega), neg_add]
  · rfl

/-- The same sample leaves mirrored states, its events mirrored as well. -/
theorem MirrorOf.after_sample (p1 : Word) :
    MirrorOf (sampled .saw p1 evs s) (sampled .rsaw p1 (evs.map mirroredEvent) t) := by
  obtain ⟨hhead, htail, hcount⟩ := h.ring_sampled hs ht hevs p1
  exact {
    phase := by rw [sampled_frame, sampled_frame .saw]
    freq := by rw [sampled_frame, sampled_frame .saw]; exact h.freq
    modes := by rw [sampled_frame, sampled_frame .rsaw]; exact h.modes
    fault := by rw [sampled_frame, sampled_frame .saw]; exact h.fault
    wptr := by rw [sampled_frame, sampled_frame .saw, h.wptr]
    ring := ⟨hhead, htail, hcount⟩
    table := by rw [sampled_frame, sampled_frame .saw]; exact h.table
    live := fun _ => mirrored_live_of_liveSlots hcount (h.liveSlots_sampled hs ht hevs p1)
    cells := fun _ => h.dueCell_sampled hs ht hevs p1 }

end

/-! ### CAUSE, which the mirror leaves free, plays no part in a sample -/

theorem insertAll_cause (evs : List StepEvent) (s : State) (c : Option Cause) :
    insertAll evs { s with cause := c } = { insertAll evs s with cause := c } := by
  induction evs generalizing s with
  | nil => rfl
  | cons e es ih =>
    have hone : insertEvent { s with cause := c } e = { insertEvent s e with cause := c } := by simp only [insertEvent]
    rw [insertAll_cons, insertAll_cons, hone, ih]

theorem retire_cause (s : State) (c : Option Cause) : retire { s with cause := c } = { retire s with cause := c } := by
  have hlive : liveSlots { s with cause := c } = liveSlots s := rfl
  rw [retire_eq, retire_eq s, hlive]

theorem sampled_cause (fam : Family) (p1 : Word) (evs : List StepEvent) (s : State) (c : Option Cause) :
    sampled fam p1 evs { s with cause := c } = { sampled fam p1 evs s with cause := c } := by
  rw [sampled, sampled, retire_cause, insertAll_cause, emitSample_eq, emitSample_eq]
  cases fam <;> rfl

theorem eventsOf_cause (fam : Family) (src : PhaseSource) (s : State) (c : Option Cause) :
    eventsOf fam src { s with cause := c } = eventsOf fam src s := by
  cases fam <;> cases src <;> rfl

theorem genCommand_with_cause {fam : Family} {src : PhaseSource} {s : State} (h : Inv s) (hready : GenReady fam src s)
    (c : Option Cause) : genCommand fam src { s with cause := c } = { genCommand fam src s with cause := c } := by
  have hroom : overfull (eventsOf fam src { s with cause := c }).length (retire { s with cause := c }) = false := by
    rw [eventsOf_cause, retire_cause]
    exact overfull_retire h fam src
  have hphase : newPhase src { s with cause := c } = newPhase src s := by cases src <;> rfl
  rw [genCommand_eq_sampled h hready, ← sampled_cause, ← hphase, ← eventsOf_cause fam src s c]
  exact genCommand_eq_sampled_of_room hready hroom

section
variable {s t : State} (h : MirrorOf s t)
include h

theorem MirrorOf.with_cause (c : Option Cause) : MirrorOf s { t with cause := c } :=
  ⟨h.phase, h.freq, h.modes, h.fault, h.wptr, h.ring, h.table, h.live, h.cells⟩

/-- The mirror of a state of the invariant is in the invariant, if its CAUSE is one its FAULT calls for. -/
theorem MirrorOf.inv (hs : Inv s) (hstatus : StatusOk t) : Inv t := by
  obtain ⟨hhead, htail, hcount⟩ := h.ring
  obtain ⟨hrange, horder⟩ := hs.ages
  have hage (j : Nat) (hj : j < s.count.toNat) : (liveSlot t j).age = (liveSlot s j).age := (h.live j hj).2.2
  exact {
    ring := by
      rw [RingOk, hhead, htail, hcount]
      exact hs.ring
    ages := by
      rw [AgesOk, hcount]
      refine ⟨fun j hj => ?_, fun j hj => ?_⟩
      · rw [hage j hj]
        exact hrange j hj
      · rw [hage j (by omega), hage (j + 1) (by omega)]
        exact horder j hj
    two := by
      rw [TwoPerSample, hcount]
      intro j hj
      rw [hage j (by omega), hage (j + 2) (by omega)]
      exact hs.two j hj
    freq := by
      rw [FreqOk, h.freq]
      exact hs.freq
    mode := by
      rw [ModeOk, h.modes.2]
      exact nofun
    status := hstatus
    cells := fun j hj => by rw [h.cells j hj, hs.cells j hj, h.owed_eq_neg] }

variable {src : PhaseSource}

theorem MirrorOf.genReady (hready : GenReady .saw src s) : GenReady .rsaw src t := by
  obtain ⟨hfault, -, hrange⟩ := hready
  refine ⟨h.fault.trans hfault, h.modes.2, ?_⟩
  rwa [h.phase]

theorem MirrorOf.newPhase_eq : newPhase src t = newPhase src s := by
  cases src <;> simp only [newPhase, h.phase, h.freq]

theorem MirrorOf.eventsOf_eq : eventsOf .rsaw src t = (eventsOf .saw src s).map mirroredEvent := by
  have hincrement : increment src t = increment src s := by cases src <;> simp only [increment, h.phase, h.freq]
  rw [eventsOf, h.newPhase_eq, hincrement]
  exact detect_rsaw_eq_mirrored ..

/-- What goes under the saturation is mirrored: the naive value as x and -1 - x, every tap as x and -x. -/
theorem MirrorOf.tapPerSampleValue_eq : tapPerSampleValue .rsaw src t = -1 - tapPerSampleValue .saw src s := by
  rw [tapPerSampleValue, h.newPhase_eq, naive_rsaw s, h.owed_eq_neg, h.eventsOf_eq, h.table, tapSum_mirroredEvent,
    tapPerSampleValue]
  ring

/-- The same GEN keeps a pair of the invariant mirrored, and saturation mirrors the samples too. -/
theorem MirrorOf.after_gen (hs : Inv s) (ht : Inv t) (hready : GenReady .saw src s) :
    MirrorOf (genCommand .saw src s) (genCommand .rsaw src t) ∧
    (genCommand .rsaw src t).pending =
      t.pending ++ [⟨false, enc32 (-1 - sat16 (tapPerSampleValue .saw src s))⟩] := by
  have hready' := h.genReady hready
  constructor
  · rw [genCommand_eq_sampled hs hready, genCommand_eq_sampled ht hready', h.newPhase_eq, h.eventsOf_eq]
    exact h.after_sample hs ht (eventsOf_length_le_two ..) _
  · rw [genCommand_pending ht hready', h.tapPerSampleValue_eq, sat16_mirror]

end

theorem MirrorOf.respond {s t : State} (h : MirrorOf s t) (err : Bool) (data : Word) :
    MirrorOf (respond err data s) (respond err data t) :=
  ⟨h.phase, h.freq, h.modes, h.fault, h.wptr, h.ring, h.table, h.live, h.cells⟩

/-- INIT of either direction with one word, from one state (R121, R122). -/
theorem mirrorOf_initDatapath (f : Word) (s : State) : MirrorOf (initDatapath .saw f s) (initDatapath .rsaw f s) where
  phase := rfl
  freq := rfl
  modes := ⟨rfl, rfl⟩
  fault := rfl
  wptr := rfl
  ring := ⟨rfl, rfl, rfl⟩
  table := rfl
  live := fun _ hj => absurd hj (Nat.not_lt_zero _)
  cells := fun _ _ => by simp [dueCell]

end Sys2Proof.Machine
end

section
open Sys2Proof Sys2Proof.Machine

/-- Settles O24: one carry out of the sum per wrap, and a phase that wrapped lies below the increment. -/
theorem wrapsAreCountedByTheAccumulator : Obligations.WrapsAreCountedByTheAccumulator := by
  unfold Obligations.WrapsAreCountedByTheAccumulator
  intro fam s n h hfault hmode
  have hready : GenReady fam .internal s := ⟨hfault, hmode, nofun⟩
  have hcount := wrapCount_eq h hready n
  have hstart := s.phase.isLt
  refine ⟨phaseAfter_toNat h hready n, hcount, by omega, fun m _ hwrap r => ?_⟩
  rw [phaseAfter_succ h hready] at hwrap ⊢
  rw [crossed_iff, BitVec.sub_zero, add_lt_increment_iff, wraps_iff_lt]
  exact hwrap

/-- Settles O23: over any commands the history accounts for the live events, so the closed form is the value that one
tap per sample per live event gives the GEN. -/
theorem outputIsTheClosedFormOfItsHistory : Obligations.OutputIsTheClosedFormOfItsHistory := by
  unfold Obligations.OutputIsTheClosedFormOfItsHistory
  intro s0 is fam src hinv hempty hready
  have haccounts := (accounts_nil hinv hempty).runHistory is
  have hclosed := haccounts.closedCorrection_cons (eventsOf fam src (runHistory is s0 []).1)
  generalize (runHistory is s0 []).1 = s, (runHistory is s0 []).2 = hist at *
  have hvalue : tapPerSampleValue fam src s =
      naive fam s (newPhase src s) + closedCorrection s0.table (eventsOf fam src s :: hist) := by
    rw [hclosed, ← haccounts.table, ← add_assoc, tapPerSampleValue]
  obtain ⟨hbelow, hwithin, habove⟩ := sat16_clips (tapPerSampleValue fam src s)
  exact ⟨genCommand fam src s, tapPerSampleValue fam src s, sat16 (tapPerSampleValue fam src s), exec_genOf fam src s,
    hvalue, hbelow, hwithin, habove, genCommand_pending haccounts.inv hready, hclosed⟩

/-- Settles O32: INIT gives the base pair; a GEN is taken in the mirror with the CAUSE the invariant wants, which no
sample reads. -/
theorem reverseSawtoothMirrorsTheSawtooth : Obligations.ReverseSawtoothMirrorsTheSawtooth := by
  unfold Obligations.ReverseSawtoothMirrorsTheSawtooth
  constructor
  · intro f s hfault
    have hinit (fam : Family) : after (initOf fam f) s = respond false 0#32 (initDatapath fam f s) := by
      rw [after_initOf, initCommand, hfault]
      rfl
    have hsaw : after (.initSaw f) s = respond false 0#32 (initDatapath .saw f s) := hinit .saw
    have hrsaw : after (.initRsaw f) s = respond false 0#32 (initDatapath .rsaw f s) := hinit .rsaw
    rw [hsaw, hrsaw]
    exact (mirrorOf_initDatapath f s).respond false 0#32
  · intro src s t hs hmirror hready
    have hcaused := hmirror.with_cause s.cause
    have hinv : Inv { t with cause := s.cause } := hcaused.inv hs (hmirror.fault.trans hs.status)
    obtain ⟨hpair, hpending⟩ := hcaused.after_gen hs hinv hready
    have hgen : genCommand .rsaw src t =
        { genCommand .rsaw src { t with cause := s.cause } with cause := t.cause } :=
      genCommand_with_cause hinv (hcaused.genReady hready) t.cause
    obtain ⟨hlow, hhigh⟩ := sat16_bounds (tapPerSampleValue .saw src s)
    refine ⟨genCommand .saw src s, genCommand .rsaw src t, sat16 (tapPerSampleValue .saw src s), rfl, rfl, ?_, hlow,
      hhigh, genCommand_pending hs hready, ?_⟩
    · rw [hgen]
      exact hpair.with_cause t.cause
    · rw [hgen]
      exact hpending

end

/-! ## The initialisation family: what INIT writes, and INIT twice

An INIT writes values that depend on the family and the word alone and keeps every other element (R120), so a second
one of the same family and word writes what is there already (R124). -/

section
namespace Sys2Proof.Machine

/-- FREQ is min(DATA, FREQ_MAX), written as the comparison of R120. -/
theorem clampFreq_eq_ite (f : Word) : clampFreq f = if 0x7FFFFFFF < f.toNat then 0x7FFFFFFF#32 else f := by
  simp only [clampFreq, clampFlag, Config.freqMax, decide_eq_true_eq, BitVec.toNat_ofNat]

theorem exec_initOf_of_faulted (fam : Family) (f : Word) {s : State} (h : s.fault = true) :
    exec (initOf fam f) s = .next (answered true 0#32 s) := by
  rw [exec_initOf, initCommand, if_pos h, refuse_eq]

theorem exec_initOf_of_unfaulted (fam : Family) (f : Word) {s : State} (h : s.fault = false) :
    exec (initOf fam f) s = .next (answered false 0#32 (initDatapath fam f s)) := by
  rw [exec_initOf, initCommand, if_neg (Bool.eq_false_iff.mp h), respond_eq_answered]

/-- What INIT writes depends on the family and the word alone, so a second INIT finds it written; the responses are no
part of it (R124). -/
theorem initDatapath_answered_initDatapath (fam : Family) (f : Word) (err : Bool) (data : Word) (s : State) :
    initDatapath fam f (answered err data (initDatapath fam f s)) = answered err data (initDatapath fam f s) := rfl

end Sys2Proof.Machine
end

section
open Sys2Proof Sys2Proof.Machine

/-- Settles O25: an INIT is refused or writes what `initDatapath` lists, with the clamp as R120 compares it. -/
theorem initSeedsTheDatapath : Obligations.InitSeedsTheDatapath := by
  unfold Obligations.InitSeedsTheDatapath
  intro fam f s
  refine ⟨exec_initOf_of_faulted fam f, fun hfault => ?_⟩
  rw [exec_initOf_of_unfaulted fam f hfault, ← clampFreq_eq_ite]
  cases fam <;> rfl

/-- Settles O26: the first INIT leaves BLOSC unfaulted, so the second runs, and writes what is there already. -/
theorem initIsIdempotent : Obligations.InitIsIdempotent := by
  unfold Obligations.InitIsIdempotent
  intro fam f s hfault
  have hkept : (answered false 0#32 (initDatapath fam f s)).fault = false := hfault
  refine ⟨_, exec_initOf_of_unfaulted fam f hfault, rfl, ?_⟩
  rw [exec_initOf_of_unfaulted fam f hkept, initDatapath_answered_initDatapath]
  rfl

end

/-! ## The control family: NOP, SETPH and CFGSQ

Each ends in one response; SETPH and CFGSQ first write their own elements, unless FAULT refuses them (R150 to R152). -/

section
namespace Sys2Proof.Machine

theorem exec_nop (s : State) : exec .nop s = .next (answered false 0#32 s) := by
  rw [exec_eq_next_after, after_nop, respond_eq_answered]

theorem exec_setph_of_faulted (ph : Word) {s : State} (h : s.fault = true) :
    exec (.setph ph) s = .next (answered true 0#32 s) := by
  rw [exec_eq_next_after, after_setph, if_pos h, refuse_eq]

theorem exec_setph_of_unfaulted (ph : Word) {s : State} (h : s.fault = false) :
    exec (.setph ph) s = .next (answered false 0#32 { s with phase := ph }) := by
  rw [exec_eq_next_after, after_setph, if_neg (Bool.eq_false_iff.mp h), respond_eq_answered]

theorem exec_cfgsq_of_faulted (polb : Bool) (wid : Word) {s : State} (h : s.fault = true) :
    exec (.cfgsq polb wid) s = .next (answered true 0#32 s) := by
  rw [exec_eq_next_after, after_cfgsq, if_pos h, refuse_eq]

theorem exec_cfgsq_of_unfaulted (polb : Bool) (wid : Word) {s : State} (h : s.fault = false) :
    exec (.cfgsq polb wid) s = .next (answered false 0#32 { s with width := wid, pol := polb }) := by
  rw [exec_eq_next_after, after_cfgsq, if_neg (Bool.eq_false_iff.mp h), respond_eq_answered]

/-- The two words of CFGSQ are OP with POLB, no other field (R71, R73). -/
theorem packFields_cfgsq (polb : Bool) :
    packFields 4#4 0#2 false polb 0#8 = if polb then 0x00000084#32 else 0x00000004#32 := by
  cases polb <;> rfl

end Sys2Proof.Machine
end

section
open Sys2Proof Sys2Proof.Machine

/-- Settles O33: the word 0 matches NOP's row whatever DATA is, and NOP has no FAULT check. -/
theorem nopOnlyResponds : Obligations.NopOnlyResponds := by
  unfold Obligations.NopOnlyResponds
  exact ⟨fun data => decode_of_hit (r := ⟨.nop, 0x00000000#32, 0xFFFFFFFF#32⟩) (by decide) (by decide) data, exec_nop⟩

/-- Settles O34: the word is the one the encoder writes, and FAULT alone decides between the write and the refusal. -/
theorem setphWritesPhaseOnly : Obligations.SetphWritesPhaseOnly := by
  unfold Obligations.SetphWritesPhaseOnly
  intro ph s
  exact ⟨decode_setphWord ph, exec_setph_of_unfaulted ph, exec_setph_of_faulted ph⟩

/-- Settles O35: the words are the encoder's for the two polarities, and FAULT alone decides between the writes and the
refusal. -/
theorem cfgsqWritesWidthAndPolarityOnly : Obligations.CfgsqWritesWidthAndPolarityOnly := by
  unfold Obligations.CfgsqWritesWidthAndPolarityOnly
  intro polb wid s
  rw [← packFields_cfgsq]
  exact ⟨decode_cfgsqWord polb wid, exec_cfgsq_of_unfaulted polb wid, exec_cfgsq_of_faulted polb wid⟩

end

/-! ## The exceptions family: precise faults, the faulted state, the order of causes

A command ends in one of three ways (`CommandEnd`): it is refused because BLOSC is faulted, it takes the first fault, or
it runs and keeps FAULT and CAUSE. That faults are precise (R176) and that only reset clears one (R172, R177) are read
off the three ways. Which command is refused, and which cause a GEN takes, is a matter of its checks in order (R173,
R174). -/

section
namespace Sys2Proof.Machine

/-! ### The ways a command can end (R172, R173, R176) -/

/-- How a command takes `s` to the next state: refused, with a first fault, or run without an error. -/
inductive CommandEnd (s : State) : State → Prop where
  | refused (hfault : s.fault = true) : CommandEnd s (answered true 0#32 s)
  | faulted (hfault : s.fault = false) (c : Cause) : CommandEnd s (faultedBy c s)
  | ran {t : State} (data : Word) (hpending : t.pending = s.pending ++ [⟨false, data⟩])
      (hfault : t.fault = s.fault) (hcause : t.cause = s.cause) : CommandEnd s t

theorem commandEnd_raiseFault (c : Cause) (s : State) : CommandEnd s (raiseFault c s) := by
  rcases raiseFault_cases c s with ⟨hfault, he⟩ | ⟨hfault, he⟩ <;> rw [he]
  · exact .faulted hfault c
  · exact .refused hfault

/-- A command that writes its own elements unless FAULT refuses it. -/
theorem commandEnd_refuse_or_write {s s' : State} (hpending : s'.pending = s.pending) (hfault : s'.fault = s.fault)
    (hcause : s'.cause = s.cause) : CommandEnd s (if s.fault then refuse s else respond false 0#32 s') := by
  split
  · exact .refused ‹_›
  · exact .ran 0#32 (by rw [respond_pending, hpending]) hfault hcause

theorem commandEnd_genCommand (fam : Family) (src : PhaseSource) (s : State) : CommandEnd s (genCommand fam src s) := by
  rcases genCommand_ends fam src s with ⟨hfault, he⟩ | ⟨hfault, c, he⟩ | ⟨-, -, -, he⟩ <;> rw [he]
  · exact .refused hfault
  · exact .faulted hfault c
  · rw [sampled_frame]
    exact .ran _ rfl rfl rfl

theorem commandEnd_after (i : Instr) (s : State) : CommandEnd s (after i s) := by
  rcases instr_cases i with rfl | ⟨ph, rfl⟩ | ⟨polb, wid, rfl⟩ | ⟨reg, rfl⟩ | ⟨fam, f, rfl⟩ | ⟨fam, src, rfl⟩
  · exact .ran 0#32 rfl rfl rfl
  · exact commandEnd_refuse_or_write rfl rfl rfl
  · exact commandEnd_refuse_or_write rfl rfl rfl
  · cases hreg : regValue reg s with
    | some v => rw [after_rdreg_of_some hreg]; exact .ran v rfl rfl rfl
    | none => rw [after_rdreg_of_none hreg]; exact commandEnd_raiseFault .illegal s
  · rw [after_initOf]
    exact commandEnd_refuse_or_write rfl rfl rfl
  · rw [after_genOf]
    exact commandEnd_genCommand fam src s

theorem exists_runCommand_commandEnd (cmd data : Word) (s : State) :
    ∃ t, runCommand cmd data s = .next t ∧ CommandEnd s t := by
  rcases runCommand_cases cmd data s with ⟨i, -, he⟩ | ⟨-, he⟩
  · exact ⟨_, he, commandEnd_after i s⟩
  · exact ⟨_, he, commandEnd_raiseFault .illegal s⟩

/-- No command leaves the faulted state or changes the cause it was entered with. -/
theorem CommandEnd.keeps_fault {s t : State} (h : CommandEnd s t) (hfaulted : s.fault = true) :
    t.fault = true ∧ t.cause = s.cause := by
  cases h with
  | refused => exact ⟨hfaulted, rfl⟩
  | faulted hfault => simp [hfaulted] at hfault
  | ran data hpending hfault hcause => exact ⟨hfault.trans hfaulted, hcause⟩

/-! ### The checks of a command, in their order (R173, R174) -/

theorem runCommand_of_illegal {cmd data : Word} (h : decode cmd data = .illegal) (s : State) :
    runCommand cmd data s = .next (if s.fault then answered true 0#32 s else faultedBy .illegal s) := by
  rw [runCommand, h, ← raiseFault_eq_ite, execIllegal]

theorem exec_rdreg_reserved {reg : Nat} (hreg : (0x09 ≤ reg ∧ reg ≤ 0x0F) ∨ 0x40 ≤ reg) (s : State) :
    exec (.rdreg reg) s = .next (if s.fault then answered true 0#32 s else faultedBy .illegal s) := by
  rw [exec_rdreg_of_none (regValue_reserved s hreg), raiseFault_eq_ite]

/-- A number of the register map that is not reserved has a value (R56). -/
theorem exists_regValue {reg : Nat} (hreg : reg ≤ 0x08 ∨ (0x10 ≤ reg ∧ reg ≤ 0x3F)) (s : State) :
    ∃ v, regValue reg s = some v := by
  rcases hreg with hlow | ⟨hge, hle⟩
  · interval_cases reg <;> exact ⟨_, rfl⟩
  · by_cases hcell : reg < 0x20
    · obtain ⟨i, rfl⟩ := Nat.exists_eq_add_of_le hge
      exact ⟨_, regValue_cell s (by omega)⟩
    · obtain ⟨j, rfl⟩ := Nat.exists_eq_add_of_le (not_lt.mp hcell)
      exact ⟨_, regValue_slot s (by omega)⟩

theorem exec_genOf_of_faulted (fam : Family) (src : PhaseSource) {s : State} (h : s.fault = true) :
    exec (genOf fam src) s = .next (answered true 0#32 s) := by
  rw [exec_genOf, genCommand, if_pos h, refuse_eq]

/-- While faulted, every command but NOP and RDREG is refused, before any other check (R173). -/
theorem exec_of_faulted {i : Instr} (hnop : i ≠ .nop) (hrdreg : ∀ reg, i ≠ .rdreg reg) {s : State}
    (h : s.fault = true) : exec i s = .next (answered true 0#32 s) := by
  rcases instr_cases i with rfl | ⟨ph, rfl⟩ | ⟨polb, wid, rfl⟩ | ⟨reg, rfl⟩ | ⟨fam, f, rfl⟩ | ⟨fam, src, rfl⟩
  · exact absurd rfl hnop
  · exact exec_setph_of_faulted ph h
  · exact exec_cfgsq_of_faulted polb wid h
  · exact absurd rfl (hrdreg reg)
  · exact exec_initOf_of_faulted fam f h
  · exact exec_genOf_of_faulted fam src h

section
variable {s : State} (hfault : s.fault = false) (fam : Family) (src : PhaseSource)
include hfault

theorem genCommand_of_mode_none (hmode : s.mode = .none) : genCommand fam src s = faultedBy .uninit s := by
  simp [genCommand, hfault, hmode, raiseFault_eq_ite]

theorem genCommand_of_other_mode (hsome : s.mode ≠ .none) (hother : s.mode ≠ familyMode fam) :
    genCommand fam src s = faultedBy .mode s := by
  simp [genCommand, hfault, hsome, hother, raiseFault_eq_ite]

theorem genCommand_of_outOfRange (hmode : s.mode = familyMode fam) (hrange : outOfRange src s = true) :
    genCommand fam src s = faultedBy .range s := by
  rw [genCommand_of_familyMode hfault hmode, if_pos hrange]

end

theorem genCommand_of_overfull {fam : Family} {src : PhaseSource} {s : State} (hready : GenReady fam src s)
    (hfull : overfull (eventsOf fam src s).length (retire s) = true) :
    genCommand fam src s = faultedBy .overflow s := by
  obtain ⟨hfault, hmode, hrange⟩ := hready
  rw [genCommand_of_familyMode hfault hmode, (outOfRange_eq_false_iff src s).mpr hrange, hfull]
  rfl

end Sys2Proof.Machine
end

section
open Sys2Proof Sys2Proof.Machine

/-- Settles O38: the two ends with ERR = 1 are a refusal and a first fault; a command that ran has ERR = 0. -/
theorem faultsArePrecise : Obligations.FaultsArePrecise := by
  unfold Obligations.FaultsArePrecise
  intro cmd data s
  obtain ⟨t, hrun, hend⟩ := exists_runCommand_commandEnd cmd data s
  cases hend with
  | refused hfault =>
    exact ⟨_, ⟨true, 0#32⟩, hrun, rfl, fun _ => ⟨rfl, .inl ⟨hfault, rfl⟩⟩, nofun⟩
  | faulted hfault c =>
    exact ⟨_, ⟨true, 0#32⟩, hrun, rfl, fun _ => ⟨rfl, .inr ⟨hfault, c, rfl⟩⟩, nofun⟩
  | ran value hpending hfault hcause =>
    exact ⟨t, ⟨false, value⟩, hrun, hpending, nofun, fun _ => ⟨hfault, hcause⟩⟩

/-- Settles O39: NOP and RDREG do not look at FAULT, every other command is refused, and no end clears FAULT. -/
theorem faultedStateRunsOnlyNopAndReads : Obligations.FaultedStateRunsOnlyNopAndReads := by
  unfold Obligations.FaultedStateRunsOnlyNopAndReads
  intro s hfault
  refine ⟨exec_nop s, ?_, ?_, ?_, fun fam f => exec_initOf_of_faulted fam f hfault,
    fun fam src => exec_genOf_of_faulted fam src hfault, fun ph => exec_setph_of_faulted ph hfault,
    fun polb wid => exec_cfgsq_of_faulted polb wid hfault, ?_⟩
  · intro reg hreg
    obtain ⟨v, hvalue⟩ := exists_regValue hreg s
    exact ⟨v, hvalue, exec_rdreg_of_some hvalue⟩
  · intro reg hreg
    rw [exec_rdreg_reserved (by omega), if_pos hfault]
  · intro cmd data hillegal
    rw [runCommand_of_illegal hillegal, if_pos hfault]
  · intro i t hexec
    obtain rfl : after i s = t := by simpa [exec_eq_next_after] using hexec
    exact ((commandEnd_after i s).keeps_fault hfault).1

/-- Settles O40: each clause is the check of its cause, with every earlier check passed. -/
theorem firstCauseInOrderIsTaken : Obligations.FirstCauseInOrderIsTaken := by
  unfold Obligations.FirstCauseInOrderIsTaken
  intro s
  refine ⟨fun _ _ hillegal => runCommand_of_illegal hillegal s, fun reg hreg => exec_rdreg_reserved (by omega) s,
    fun hfault i hnop hrdreg => exec_of_faulted hnop hrdreg hfault, fun hfault fam src => ?_⟩
  rw [exec_genOf]
  refine ⟨fun hnone => ?_, fun hsome hother => ?_, fun hmode ph hsrc hfar => ?_, fun hready hfull => ?_⟩
  · rw [genCommand_of_mode_none hfault fam src hnone]
  · rw [genCommand_of_other_mode hfault fam src hsome hother]
  · have hrange : outOfRange src s = true := by rw [hsrc]; exact decide_eq_true hfar
    rw [genCommand_of_outOfRange hfault fam src hmode hrange]
  · rw [genCommand_of_overfull hready (decide_eq_true hfull)]

/-- Settles O41: delivery and every end of a command keep FAULT and CAUSE of a faulted state; only the reset edge is
left. -/
theorem onlyResetClearsAFault : Obligations.OnlyResetClearsAFault := by
  unfold Obligations.OnlyResetClearsAFault
  intro s t hstep hfault
  rcases step_cases hstep with ⟨-, rfl⟩ | ⟨e, rest, hinputs, ⟨hrst, -⟩ | ⟨-, -, rfl⟩ | ⟨-, -, i, -, rfl⟩ | ⟨-, -, -, rfl⟩⟩
  · exact .inl ⟨hfault, rfl⟩
  · exact .inr ⟨e, rest, hinputs, hrst⟩
  · left; simp [hfault]
  · left; simpa using (commandEnd_after i (deliver e { s with inputs := rest })).keeps_fault (by simpa using hfault)
  · left; simp [hfault]

/-- Settles O12: `exists_step_eq_next`, a case per kind of edge. -/
theorem everyEdgeAnswersANextState : Obligations.EveryEdgeAnswersANextState :=
  exists_step_eq_next

end

/-! ## The reset family: the reset edge, and the edges that change nothing

The remaining arms of `step` by their equations (`step_of_no_edge`, `step_of_rst`), beside `step_of_not_accepts`
of the memory family; at a reset edge the ports are 0 (`ports_of_rst`), so the handshake moves nothing. -/

section
namespace Sys2Proof.Machine

/-- With no edge left nothing changes (log 1). -/
theorem step_of_no_edge {s : State} (hinputs : s.inputs = []) : step s = .next s := by
  simp [step, hinputs]

/-- An edge with rst = 1 is the reset event (R190). -/
theorem step_of_rst {s : State} {e : PortEdge} {rest : List PortEdge} (hinputs : s.inputs = e :: rest)
    (hrst : e.rst = true) : step s = .next ({ s with inputs := rest } : State).applyReset := by
  simp [step, hinputs, hrst]

/-- At a reset edge the handshake accepts no command and takes no response (R190). -/
theorem handshake_of_rst {e : PortEdge} (hrst : e.rst = true) : e.accepts = false ∧ e.takes = false := by
  obtain ⟨hready, hvalid⟩ := ports_of_rst hrst
  rw [(handshake_eq e).1, (handshake_eq e).2, hready, hvalid, Bool.and_false, Bool.false_and]
  exact ⟨rfl, rfl⟩

/-- An edge that takes no response delivers none. -/
theorem deliveredAt_of_not_takes {e : PortEdge} (htakes : e.takes = false) (s : State) : deliveredAt e s = none := by
  simp [deliveredAt, htakes]

end Sys2Proof.Machine
end

section
open Sys2Proof Sys2Proof.Machine

/-- Settles O9: at a reset edge both ports are 0, nothing moves, and the step is `applyReset`. -/
theorem resetEdgeGivesTheResetValues : Obligations.ResetEdgeGivesTheResetValues := by
  unfold Obligations.ResetEdgeGivesTheResetValues
  intro s e rest hinputs hrst
  obtain ⟨hready, hvalid⟩ := ports_of_rst hrst
  obtain ⟨haccepts, htakes⟩ := handshake_of_rst hrst
  exact ⟨hready, hvalid, haccepts, deliveredAt_of_not_takes htakes s, step_of_rst hinputs hrst⟩

/-- Settles O10: without an edge nothing changes; without a command accepted an edge only delivers. -/
theorem onlyCommandsAndResetChangeTheState : Obligations.OnlyCommandsAndResetChangeTheState := by
  unfold Obligations.OnlyCommandsAndResetChangeTheState
  refine ⟨fun s hinputs => step_of_no_edge hinputs, fun s e rest hinputs hrst hnone => ?_⟩
  have haccepts : e.accepts = false := (handshake_eq e).1.trans hnone
  rw [step_of_not_accepts hinputs hrst haccepts, deliver_eq]

end
